-- ==== Sys2Proof/Word.lean ====
section
/-! DEFINITION. The value types of the WPCG core: every width the spec gives a cell, a port or a command word
(`00_scope.md` R4, R5; `10_state.md` R11, R15 to R17). All values are unsigned (R5). -/

namespace Sys2Proof

/-- A byte: bit 0 is the least significant, bit 7 the most significant (R5). -/
abbrev Byte := BitVec 8

/-- A 24-bit RGB colour, as it stands on a port (R11, R12). -/
abbrev Colour := BitVec 24

/-- A 16-bit command word (R46). -/
abbrev CmdWord := BitVec 16

/-- A symbol: a value of the closed range 0 to 31, five bits wide (R16). -/
abbrev Symbol := BitVec 5

/-- `CB`: nine cells of eight bits, index 0 first (R15). -/
abbrev CodeBuffer := Vector Byte 9

/-- `SYM`: fifteen cells of five bits, index 0 first (R16). -/
abbrev SymbolFile := Vector Symbol 15

/-- `OUT`: fifteen character cells, index 0 the first character; a cell holds a character's 8-bit code
(R17, decision D8). -/
abbrev OutputFile := Vector Byte 15

/-- The six parameter ports `P` (R11). `pat` is a full byte (R13, decision D2). -/
structure Params where
  /-- `P.bg`, the background colour. -/
  bg : Colour
  /-- `P.fg`, the foreground colour. -/
  fg : Colour
  /-- `P.icon`, "0–15 conceptually, stored as a full byte". -/
  icon : Byte
  /-- `P.pat`, the pattern. -/
  pat : Byte
  /-- `P.tid`, the trainer identifier. -/
  tid : BitVec 16
  /-- `P.key`, "the varying secret seed". -/
  key : Byte
deriving DecidableEq, Repr, Inhabited

end Sys2Proof
end

