-- ==== Sys2Proof/Syntax.lean ====
section
/-! DEFINITION. The operations of the block: one constructor per row of `spec/opcode_table.json`
(`30_encoding.md` R45), the names of the table's rows, and the names a word is rejected under (R49). -/

namespace Sys2Proof

/-- The six operations of R45, and no others. -/
inductive Instr where
  /-- `PACK`: the Field Packer (R61). -/
  | pack
  /-- `MASK k`: the Masker; `k` is the 8-bit key byte (R86). -/
  | mask (k : Byte)
  /-- `ROTR r, n`: the Circular Rotator; `r` is an unsigned number, `n` a natural number (R70). A command word
  carries `r` in 4 bits and `n` in 8 (R47), which is `Instr.wellFormed`; the meaning is defined for every natural. -/
  | rotr (r n : Nat)
  /-- `SYMPK`: the Symbol Packer (R90). -/
  | sympk
  /-- `REND`: the Renderer (R105). -/
  | rend
  /-- `ENCODE`: the whole pipeline (R113). -/
  | encode
deriving DecidableEq, Repr

/-- The mnemonics of the opcode table (R45, R51). -/
inductive Mnemonic where
  | pack | mask | rotr | sympk | rend | encode
deriving DecidableEq, Repr

/-- Why a command word is illegal (R49). All raise IllegalCommand; the names are the model's (log entry 13). -/
inductive IllegalWord where
  /-- `op` is 0x0 or 0x7 to 0xF. -/
  | reservedOp
  /-- `rng` is not 0 on an operation other than ROTR. -/
  | nonzeroRng
  /-- `imm` is not 0 on PACK, SYMPK, REND or ENCODE. -/
  | nonzeroImm
deriving DecidableEq, Repr

/-- The pseudo-operations of the assembler (R52). -/
inductive Pseudo where
  /-- `ROT1 k`. -/
  | rot1 (k : Byte)
  /-- `ROT2`. -/
  | rot2
  /-- `MASK0`. -/
  | mask0
deriving DecidableEq, Repr

end Sys2Proof
end

