-- ==== Sys2Proof/WellFormed.lean ====
section
/-! DEFINITION. Which operation terms a command word can say (`30_encoding.md` R46, R47): the range operand fits the
4-bit field `rng` and the shift operand the 8-bit field `imm`. A range of 9 to 15 is well formed: it decodes, and
then fails the range check (R47, R51). -/

namespace Sys2Proof

/-- The operand bounds of the command word (R47). -/
def Instr.wellFormed : Instr → Bool
  | .pack => true
  | .mask _ => true
  | .rotr r n => decide (r ≤ 15) && decide (n ≤ 255)
  | .sympk => true
  | .rend => true
  | .encode => true

end Sys2Proof
end

