-- ==== Sys2Proof/Decode.lean ====
section
/-! DEFINITION. The command decoder, the encoder and the opcode map (`30_encoding.md` R46 to R50). Decoding is total
on all 65,536 words and reads nothing but the word (R50). -/

namespace Sys2Proof

/-- `op`, bits 15:12 (R46). -/
def opField (w : CmdWord) : BitVec 4 := w.extractLsb' 12 4

/-- `rng`, bits 11:8 (R46). -/
def rngField (w : CmdWord) : BitVec 4 := w.extractLsb' 8 4

/-- `imm`, bits 7:0 (R46). -/
def immField (w : CmdWord) : Byte := w.extractLsb' 0 8

/-- An operation without operands: both operand fields must be zero (R46, R49). -/
def withoutOperands (w : CmdWord) (i : Instr) : Except IllegalWord Instr :=
  if rngField w ≠ 0 then .error .nonzeroRng
  else if immField w ≠ 0 then .error .nonzeroImm
  else .ok i

/-- `MASK k`: `rng` must be zero, `imm` is the key byte (R47, R49). -/
def decodeMask (w : CmdWord) : Except IllegalWord Instr :=
  if rngField w ≠ 0 then .error .nonzeroRng else .ok (.mask (immField w))

/-- `ROTR r, n`: both fields are unsigned and used as is; a range of 9 to 15 decodes (R47). -/
def decodeRotr (w : CmdWord) : Except IllegalWord Instr :=
  .ok (.rotr (rngField w).toNat (immField w).toNat)

/-- The opcode map of R48; every other word is illegal (R49). -/
def decode (w : CmdWord) : Except IllegalWord Instr :=
  match (opField w).toNat with
  | 0x1 => withoutOperands w .pack
  | 0x2 => decodeMask w
  | 0x3 => decodeRotr w
  | 0x4 => withoutOperands w .sympk
  | 0x5 => withoutOperands w .rend
  | 0x6 => withoutOperands w .encode
  | _ => .error .reservedOp

/-- A command word from its three fields, most significant first (R46: `oooo rrrr iiiiiiii`). -/
def commandWord (op rng : BitVec 4) (imm : Byte) : CmdWord := (op ++ rng) ++ imm

/-- The word of a well-formed operation (R48, R51). -/
def encode : Instr → CmdWord
  | .pack => commandWord 0x1 0 0
  | .mask k => commandWord 0x2 0 k
  | .rotr r n => commandWord 0x3 (BitVec.ofNat 4 r) (BitVec.ofNat 8 n)
  | .sympk => commandWord 0x4 0 0
  | .rend => commandWord 0x5 0 0
  | .encode => commandWord 0x6 0 0

/-- Which row of the opcode table an operation is of (R45). -/
def Instr.mnemonic : Instr → Mnemonic
  | .pack => .pack
  | .mask _ => .mask
  | .rotr _ _ => .rotr
  | .sympk => .sympk
  | .rend => .rend
  | .encode => .encode

/-- A row of R48's table for a decoder. -/
structure TableRow where
  mnemonic : Mnemonic
  pattern : CmdWord
  mask : CmdWord
deriving DecidableEq, Repr

/-- "a word `w` selects the row when `w & mask == match`" (R48). -/
def TableRow.selects (row : TableRow) (w : CmdWord) : Bool := w &&& row.mask == row.pattern

/-- The match and mask table of R48. -/
def opcodeTable : List TableRow :=
  [ ⟨.pack, 0x1000, 0xFFFF⟩,
    ⟨.mask, 0x2000, 0xFF00⟩,
    ⟨.rotr, 0x3000, 0xF000⟩,
    ⟨.sympk, 0x4000, 0xFFFF⟩,
    ⟨.rend, 0x5000, 0xFFFF⟩,
    ⟨.encode, 0x6000, 0xFFFF⟩ ]

/-- The operation the decoder reads from a table word: one 16-bit command word, its bits numbered as the table
numbers them (R46; log entry 12: there is one length and no byte order at the command port). -/
def decodeTableWord (nbits w : Nat) : Option Instr :=
  if nbits = 16 ∧ w < 65536 then (decode (BitVec.ofNat 16 w)).toOption else none

/-- What a pseudo-operation expands to (R52). -/
def Pseudo.expand : Pseudo → Instr
  | .rot1 k => .rotr 7 (k &&& 0x0F).toNat
  | .rot2 => .rotr 8 21
  | .mask0 => .mask 0

end Sys2Proof
end

