-- ==== Sys2Proof/Config.lean ====
section
/-! DEFINITION. What an implementation fixes: the four parameters the spec leaves open
(`92_eei_decisions.md`, "Summary of open parameters a model should carry") as the fields of `Config`, and the free
values for what the spec leaves unspecified after reset (`10_state.md` R25). The values the model runs with are in
`Machine/Parameters.lean`. -/

namespace Sys2Proof

/-- `RGB_LAYOUT`: where red, green and blue stand in a 24-bit colour (R12, decision D1: two values are named). -/
inductive RgbLayout where
  /-- red = 23:16, green = 15:8, blue = 7:0 (the default). -/
  | rrggbb
  /-- blue = 23:16, green = 15:8, red = 7:0 (the alternative of D1). -/
  | bbggrr
deriving DecidableEq, Repr, Inhabited

/-- `SYM_BIT_ORDER`: how the stream of bits is cut into symbols (R92, R98, decision D7). -/
inductive SymBitOrder where
  /-- Bytes read from bit 0 upward, first bit read is symbol bit 0 (normative, R91, R92). -/
  | lsbFirst
  /-- Bytes read from bit 7 downward, first bit read is symbol bit 4 (the alternative of R98). -/
  | msbFirst
deriving DecidableEq, Repr, Inhabited

/-- The named parameters of the model. A claim that should not rest on a default is stated for every `Config`. -/
structure Config where
  /-- `RGB_LAYOUT` (D1). -/
  rgbLayout : RgbLayout
  /-- `shift1 : Byte -> Nat` (D5, R114). -/
  shift1 : Byte → Nat
  /-- The one constraint DOC0 gives: `shift1(0) = 0` (R114). -/
  shift1_zero : shift1 0 = 0
  /-- `SYM_BIT_ORDER` (D7). -/
  symBitOrder : SymBitOrder
  /-- `CHAR_CODE`: the code unit of an output character (D8). -/
  charCode : Char → Byte

/-- FREE VALUE: what `CB` holds after the `n`-th reset ("unspecified … Never assume zero", R25; decisions D16, D24).
Nothing constrains it. Log entry 3. -/
opaque Config.resetCode : Nat → CodeBuffer

/-- FREE VALUE: what `SYM` holds after the `n`-th reset ("any value in 0 to 31 per cell", R25). Log entry 3. -/
opaque Config.resetSymbols : Nat → SymbolFile

/-- FREE VALUE: what `OUT` holds after the `n`-th reset (R25). Log entry 3. -/
opaque Config.resetOut : Nat → OutputFile

/-- FREE VALUE: what stands on the ports `P` before the host first drives them (R25: "driven by the host; not reset
by the block"). Log entry 2. -/
opaque Config.undrivenParams : Params

end Sys2Proof
end

