-- ==== Sys2Proof/Machine/Parameters.lean ====
section
/-! DEFINITION. The parameter values the model runs with: the spec's defaults (`92_eei_decisions.md`, "Summary of open
parameters a model should carry") and the constants of the pipeline (`00_scope.md` R4). -/

namespace Sys2Proof.Machine

/-- Default of `RGB_LAYOUT` (R12, decision D1). DESIGN CHOICE, log entry 4. -/
def rgbLayout : RgbLayout := .rrggbb

/-- Default of `shift1`: the key's low nibble, `key[3:0]` (R114, decision D5). DESIGN CHOICE, log entry 5. -/
def shift1 (key : Byte) : Nat := (key.extractLsb' 0 4).toNat

/-- Default of `SYM_BIT_ORDER`, its normative value (R4, R98, decision D7). DESIGN CHOICE, log entry 6. -/
def symBitOrder : SymBitOrder := .lsbFirst

/-- Default of `CHAR_CODE`: 7-bit ASCII in an 8-bit cell (R17, decision D8). DESIGN CHOICE, log entry 7. -/
def charCode (c : Char) : Byte := BitVec.ofNat 8 c.toNat

/-- The constraint DOC0 gives on `shift1` (R114). -/
theorem shift1_zero : shift1 0 = 0 := by decide

/-- The parameters of this machine. -/
def config : Config :=
  { rgbLayout := rgbLayout
    shift1 := shift1
    shift1_zero := shift1_zero
    symBitOrder := symBitOrder
    charCode := charCode }

/-- `ROT1_RANGE`: range of the pipeline's first rotation (R4, R113). -/
def rot1Range : Nat := 7

/-- `ROT2_RANGE`: range of the pipeline's second rotation (R4, R113). -/
def rot2Range : Nat := 8

/-- `ROT2_SHIFT`: shift of the pipeline's second rotation (R4, R113). -/
def rot2Shift : Nat := 21

/-- `MASKED_BYTES`: the Masker touches byte indices 0 to 7 only (R4, R87). -/
def maskedBytes : Nat := 8

end Sys2Proof.Machine
end

