-- ==== Sys2Proof/Machine/Operands.lean ====
section
/-! DEFINITION. Slices and operand forms: the byte halves and low bits of `00_scope.md` R5, the colour channels of
`10_state.md` R12, the two operands of ROTR (`41_rotator.md` R70, R71, R77) and the stream view of the Code Buffer
(`20_memory.md` R34, `43_symbol_packer.md` R91, R98). -/

namespace Sys2Proof.Machine

/-- `lo8(v) = v[7:0]` (R5). -/
def lo8 (v : BitVec 16) : Byte := v.extractLsb' 0 8

/-- `hi8(v) = v[15:8]` (R5). -/
def hi8 (v : BitVec 16) : Byte := v.extractLsb' 8 8

/-- `low_k(v) = v mod 2^k` (R5). -/
def lowBits (k : Nat) (v : Byte) : Byte := BitVec.ofNat 8 (v.toNat % 2 ^ k)

/-- `c.R` (R12). -/
def redChannel (layout : RgbLayout) (c : Colour) : Byte :=
  match layout with
  | .rrggbb => c.extractLsb' 16 8
  | .bbggrr => c.extractLsb' 0 8

/-- `c.G` (R12). -/
def greenChannel (_ : RgbLayout) (c : Colour) : Byte := c.extractLsb' 8 8

/-- `c.B` (R12). -/
def blueChannel (layout : RgbLayout) (c : Colour) : Byte :=
  match layout with
  | .rrggbb => c.extractLsb' 0 8
  | .bbggrr => c.extractLsb' 16 8

/-- The range check: a range of 0 to 8 is the index of the ring's last byte, any other is out of bounds (R77). -/
def legalRange (r : Nat) : Option (Fin 9) := if h : r < 9 then some ⟨r, h⟩ else none

/-- `q = n div 8`, the whole-byte shifts; not reduced by the ring's length (R71). -/
def wholeBytes (n : Nat) : Nat := n / 8

/-- `k = n mod 8`, the leftover bits (R71). -/
def leftoverBits (n : Nat) : Nat := n % 8

/-- Bit `j` of the stream, wrapping modulo 72 (R91). In the order `lsbFirst` bit 0 of a byte comes first; in the
alternative `msbFirst` bit 7 does (R98). -/
def streamBit (order : SymBitOrder) (cb : CodeBuffer) (j : Nat) : Bool :=
  let byte := cb[j % 72 / 8]
  match order with
  | .lsbFirst => byte.getLsbD (j % 72 % 8)
  | .msbFirst => byte.getLsbD (7 - j % 72 % 8)

end Sys2Proof.Machine
end

