-- ==== Sys2Proof/Machine/State.lean ====
section
/-! DEFINITION. The architectural state (`10_state.md` R10 to R25), the host's moves (`70_reset_and_hazards.md` R146),
the reasons a step can stop, and the state right after reset. -/

namespace Sys2Proof.Machine

/-- `FAULT`: a valid bit and a 3-bit code (R19). The places of the bits in the 4-bit register are not given, so the
two fields stand apart (log entry 16). -/
structure FaultReg where
  /-- `FAULT.v`. -/
  valid : Bool
  /-- `FAULT.code`; the codes are those of R120. -/
  code : BitVec 3
deriving DecidableEq, Repr

/-- What the host may do between operations (R146). Its reads have no effect and are `hostView`. -/
inductive HostMove where
  /-- Drive all six fields of `P`. -/
  | drive (p : Params)
  /-- Issue one command word. -/
  | command (w : CmdWord)
  /-- Apply reset. -/
  | reset
deriving DecidableEq, Repr

/-- The state of one instance of the block (R10), with the ports `P` and the moves the host has still to make. -/
structure State where
  /-- `P`: what the host drives on the parameter ports; the block never writes it (R11, R14). -/
  params : Params
  /-- `CB`, the Code Buffer (R15). -/
  cb : CodeBuffer
  /-- `SYM`, the symbol file (R16). -/
  sym : SymbolFile
  /-- `OUT`, the output file (R17). -/
  out : OutputFile
  /-- `FAULT` (R19). -/
  fault : FaultReg
  /-- `SEQ`, "3 bits, values 0 to 5": the next sub-operation of an ENCODE in progress (R20, R116). -/
  seq : Fin 6
  /-- The model's own field (log entry 3): how many resets have been applied, the argument of the free values. -/
  resets : Nat
  /-- The model's own field (log entry 1): the host's moves still to come, first one first. -/
  moves : List HostMove
deriving DecidableEq, Repr

/-- Reasons for which the model itself stops. There is NONE: a fault of the block is recorded in `FAULT` and is a next
state (`60_exceptions.md` R127; log entry 9), and an idle block waits. No one raises a value of this type; the
machine never stops on a fault, which is safe for claims and is stated as an obligation. -/
inductive Fault
deriving DecidableEq, Repr

/-- Why an operation has no meaning in the model. -/
inductive Refusal where
  /-- Raised only by an arm of `exec` whose operation is not modelled yet; no arm is, so nothing raises it. Safe: the
  model stops where the block goes on. -/
  | notModelled (mnemonic : String)
deriving DecidableEq, Repr

/-- The machine right after reset (R25, R140): `FAULT` and `SEQ` exactly 0; `CB`, `SYM`, `OUT` unspecified, held as
free values; `P` not driven yet; no move of the host pending. Log entries 1 to 3. -/
def State.reset : State :=
  { params := Config.undrivenParams
    cb := Config.resetCode 0
    sym := Config.resetSymbols 0
    out := Config.resetOut 0
    fault := ⟨false, 0⟩
    seq := 0
    resets := 0
    moves := [] }

/-- What the host can read between operations (R146): `OUT`, and for inspection `CB`, `SYM`, `FAULT`. -/
structure HostView where
  out : OutputFile
  cb : CodeBuffer
  sym : SymbolFile
  fault : FaultReg
deriving DecidableEq, Repr

end Sys2Proof.Machine
end

