-- ==== Sys2Proof/Machine/Flags.lean ====
section
/-! DEFINITION. The one flag of the block, `FAULT` (`10_state.md` R19: no condition codes, carry, zero or overflow
flags exist), and the codes of its causes (`60_exceptions.md` R120). -/

namespace Sys2Proof.Machine

/-- The four fault causes, and no others (R120). -/
inductive Cause where
  /-- Raised by the command decoder (R124). -/
  | illegalCommand
  /-- Raised by ROTR on a range above 8 (R123). -/
  | rangeFault
  /-- A symbol outside 0 to 31 (R121): unreachable, a `Symbol` cannot hold one (log entry 10). -/
  | symbolRange
  /-- A Code Buffer that is not 9 bytes (R122): unreachable, a `CodeBuffer` has nine cells (log entry 10). -/
  | bufferLength
deriving DecidableEq, Repr

/-- What `FAULT.code` holds afterwards (R120). -/
def Cause.code : Cause → BitVec 3
  | .illegalCommand => 1
  | .rangeFault => 2
  | .symbolRange => 3
  | .bufferLength => 4

/-- `FAULT` with no fault recorded: code 0 means no fault (R120). -/
def FaultReg.clear : FaultReg := ⟨false, 0⟩

/-- `FAULT` with the cause recorded (R127). -/
def FaultReg.record (c : Cause) : FaultReg := ⟨true, c.code⟩

/-- `FAULT.v = 1`. -/
def State.faulted (s : State) : Bool := s.fault.valid

end Sys2Proof.Machine
end

