-- ==== Sys2Proof/Machine/Ops.lean ====
section
/-! DEFINITION. The named operations over the register files: one writer per file, raising a fault, reset (the only
way out of a fault), and performing an operation unless the block has faulted (`60_exceptions.md` R126 to R128,
`70_reset_and_hazards.md` R140). A read of a file is its field. The block has no memory (`20_memory.md` R30). -/

namespace Sys2Proof.Machine

/-- `CB <- v`, all nine cells at once. -/
def State.setCode (s : State) (v : CodeBuffer) : State := { s with cb := v }

/-- `SYM <- v`, all fifteen cells at once. -/
def State.setSymbols (s : State) (v : SymbolFile) : State := { s with sym := v }

/-- `OUT <- v`, all fifteen cells at once. -/
def State.setOut (s : State) (v : OutputFile) : State := { s with out := v }

/-- `FAULT <- v`. -/
def State.setFault (s : State) (v : FaultReg) : State := { s with fault := v }

/-- `SEQ <- v`. -/
def State.setSeq (s : State) (v : Fin 6) : State := { s with seq := v }

/-- The host drives the ports `P` (R146). -/
def State.setParams (s : State) (v : Params) : State := { s with params := v }

/-- The host's moves still to come. -/
def State.setMoves (s : State) (v : List HostMove) : State := { s with moves := v }

/-- `raise c` (R127): `FAULT.v <- 1`, `FAULT.code <- c`, and nothing else is written. While a fault is recorded no
second one is, and the first cause is kept (R128). -/
def raise (c : Cause) (s : State) : State :=
  if s.faulted then s else s.setFault (.record c)

/-- Perform an operation's effect, unless a fault is recorded: then the operation is not performed at all and nothing
is raised (R126, R128). -/
def performUnlessFaulted (effect : State → State) (s : State) : Host.Outcome State Fault Refusal :=
  if s.faulted then .next s else .next (effect s)

/-- Reset (R140), the only way to clear `FAULT`: `FAULT` and `SEQ` become 0, `CB`, `SYM` and `OUT` unspecified. The
ports `P` are not reset (R25). Each reset has free values of its own (log entry 3). -/
def applyReset (s : State) : State :=
  { s with
    cb := Config.resetCode (s.resets + 1)
    sym := Config.resetSymbols (s.resets + 1)
    out := Config.resetOut (s.resets + 1)
    fault := .clear
    seq := 0
    resets := s.resets + 1 }

end Sys2Proof.Machine
end

