-- ==== Sys2Proof/Machine/FieldPacker.lean ====
section
/-! DEFINITION. The Field Packer, operation PACK (`40_field_packer.md` R60 to R66). -/

namespace Sys2Proof.Machine

/-- `pack15(c) = (blue5 << 10) | (green5 << 5) | red5`, each channel shifted right by 3 (R60). -/
def pack15 (layout : RgbLayout) (c : Colour) : BitVec 15 :=
  let red5 := (redChannel layout c >>> 3).setWidth 15
  let green5 := (greenChannel layout c >>> 3).setWidth 15
  let blue5 := (blueChannel layout c >>> 3).setWidth 15
  (blue5 <<< 10) ||| (green5 <<< 5) ||| red5

/-- The initial Code Buffer (R61, field map R31): `pb` and `pf` low byte first, icon, pattern, the "x" and "y"
checksums, the key verbatim. -/
def packBuffer (layout : RgbLayout) (p : Params) : CodeBuffer :=
  let pb := (pack15 layout p.bg).setWidth 16
  let pf := (pack15 layout p.fg).setWidth 16
  #v[ lo8 pb,
      hi8 pb,
      lo8 pf,
      hi8 pf,
      p.icon,
      p.pat,
      lo8 pb ^^^ lo8 pf ^^^ p.icon ^^^ hi8 p.tid,
      hi8 pb ^^^ hi8 pf ^^^ p.pat ^^^ lo8 p.tid,
      p.key ]

/-- PACK's effect: all of `CB` from `P`; the old `CB` is not read (R61). -/
def packStage (s : State) : State := s.setCode (packBuffer config.rgbLayout s.params)

/-- `PACK` (R61). -/
def execPack (s : State) : Host.Outcome State Fault Refusal := performUnlessFaulted packStage s

end Sys2Proof.Machine
end

