-- ==== Sys2Proof/Machine/Masker.lean ====
section
/-! DEFINITION. The Masker, operation MASK (`42_masker.md` R85 to R89). -/

namespace Sys2Proof.Machine

/-- `mask(k) = m0 | (m0 >> 4)` with `m0 = k & 0xF0` (R85). -/
def maskByte (k : Byte) : Byte :=
  let m0 := k &&& 0xF0
  m0 ||| (m0 >>> 4)

/-- Bytes 0 to 7 XOR the mask, byte 8 untouched (R86, R87). -/
def maskBuffer (k : Byte) (cb : CodeBuffer) : CodeBuffer :=
  Vector.ofFn fun i : Fin 9 => if i.val < maskedBytes then cb[i] ^^^ maskByte k else cb[i]

/-- MASK's effect; the key byte is the operand, never `P.key` or `CB[8]` (R86). -/
def maskStage (k : Byte) (s : State) : State := s.setCode (maskBuffer k s.cb)

/-- `MASK k` (R86). -/
def execMask (k : Byte) (s : State) : Host.Outcome State Fault Refusal := performUnlessFaulted (maskStage k) s

end Sys2Proof.Machine
end

