-- ==== Sys2Proof/Machine/Renderer.lean ====
section
/-! DEFINITION. The Renderer, operation REND (`44_renderer.md` R105 to R109), and the alphabet table ALPHA
(`10_state.md` R18). -/

namespace Sys2Proof.Machine

/-- `ALPHA`: the 32 characters in index order (R18). -/
def alphabet : Vector Char 32 :=
  #v[ 'B', 'C', 'D', 'F', 'G', 'H', 'J', 'K', 'L', 'M', 'N', 'P', 'Q', 'R', 'S', 'T',
      'V', 'W', 'Z', 'b', 'c', 'd', 'f', 'g', 'h', 'j', 'k', 'm', 'n', 'p', 'q', 's' ]

/-- `ALPHA[v]`; every 5-bit symbol has an entry, so SymbolRange cannot arise (R107). -/
def letter (v : Symbol) : Char := alphabet[v.toFin]

/-- `OUT[i] <- ALPHA[SYM[i]]`, as the character's code (R105, R17). -/
def renderSymbols (code : Char → Byte) (sym : SymbolFile) : OutputFile :=
  Vector.ofFn fun i : Fin 15 => code (letter sym[i])

/-- REND's effect: `OUT` from `SYM` (R105). -/
def rendStage (s : State) : State := s.setOut (renderSymbols config.charCode s.sym)

/-- `REND` (R105). -/
def execRend (s : State) : Host.Outcome State Fault Refusal := performUnlessFaulted rendStage s

end Sys2Proof.Machine
end

