-- ==== Sys2Proof/Machine/Rotator.lean ====
section
/-! DEFINITION. The Circular Rotator, operation ROTR (`41_rotator.md` R70 to R82), in the two phases DOC0 describes.
The ring is bytes 0 to `r`; `r` is a legal range here. -/

namespace Sys2Proof.Machine

/-- The byte before byte `i` in the ring: byte `r` before byte 0, else byte `i - 1` (R72, R73). -/
def ringPredecessor (r : Fin 9) (cb : CodeBuffer) (i : Fin 9) : Byte :=
  if i.val = 0 then cb[r] else cb[i.val - 1]

/-- `ByteRot(r)`: the last ring byte moves to the front, the others one index up; bytes outside the ring stay
(R72). -/
def byteRot (r : Fin 9) (cb : CodeBuffer) : CodeBuffer :=
  Vector.ofFn fun i : Fin 9 => if i ≤ r then ringPredecessor r cb i else cb[i]

/-- `SubRot(r, k)`: each ring byte shifts right by `k` and takes the low `k` bits of the old byte before it into its
high bits (R73). -/
def subRot (r : Fin 9) (k : Nat) (cb : CodeBuffer) : CodeBuffer :=
  Vector.ofFn fun i : Fin 9 =>
    if i ≤ r then (cb[i] >>> k) ||| (lowBits k (ringPredecessor r cb i) <<< (8 - k)) else cb[i]

/-- The rotation: `n div 8` byte steps, then one sub-byte step, which is skipped when `n mod 8 = 0` (R71 to R75). -/
def rotateBuffer (r : Fin 9) (n : Nat) (cb : CodeBuffer) : CodeBuffer :=
  let moved := (byteRot r)^[wholeBytes n] cb
  if leftoverBits n = 0 then moved else subRot r (leftoverBits n) moved

/-- ROTR's effect: RangeFault before any byte is moved when `r > 8` (R75, R77). -/
def rotrStage (r n : Nat) (s : State) : State :=
  match legalRange r with
  | none => raise .rangeFault s
  | some last => s.setCode (rotateBuffer last n s.cb)

/-- `ROTR r, n` (R75). -/
def execRotr (r n : Nat) (s : State) : Host.Outcome State Fault Refusal := performUnlessFaulted (rotrStage r n) s

end Sys2Proof.Machine
end

