-- ==== Sys2Proof/Machine/SymbolPacker.lean ====
section
/-! DEFINITION. The Symbol Packer, operation SYMPK (`43_symbol_packer.md` R90 to R99): the closed form of R92, which
governs, and the running-index form of R95 beside it. -/

namespace Sys2Proof.Machine

/-- The symbol whose bit `t` is `bit t`: the sum of `bit t << t` (R92). -/
def symbolOfBits (bit : Nat → Bool) : Symbol :=
  BitVec.ofNat 5
    ((bit 0).toNat + (bit 1).toNat * 2 + (bit 2).toNat * 4 + (bit 3).toNat * 8 + (bit 4).toNat * 16)

/-- Symbol `i`: stream positions `5i` to `5i + 4`, wrapping. In the order `lsbFirst` the first position read is bit 0
of the symbol (R92); in `msbFirst` it is bit 4 (R98). -/
def symbolAt (order : SymBitOrder) (cb : CodeBuffer) (i : Nat) : Symbol :=
  match order with
  | .lsbFirst => symbolOfBits fun t => streamBit .lsbFirst cb (5 * i + t)
  | .msbFirst => symbolOfBits fun t => streamBit .msbFirst cb (5 * i + (4 - t))

/-- All fifteen symbols (R90). -/
def packSymbols (order : SymBitOrder) (cb : CodeBuffer) : SymbolFile :=
  Vector.ofFn fun i : Fin 15 => symbolAt order cb i

/-- SYMPK's effect: `SYM` from `CB`; `CB` is unchanged (R90). -/
def sympkStage (s : State) : State := s.setSymbols (packSymbols config.symBitOrder s.cb)

/-- `SYMPK` (R92). -/
def execSympk (s : State) : Host.Outcome State Fault Refusal := performUnlessFaulted sympkStage s

/-- The variables of the running-index form (R95); not architectural state (R22). -/
structure RunningIndex where
  /-- Current byte index. -/
  idx : Fin 9
  /-- Bits of that byte already consumed, from the LSB end. -/
  used : Nat
  /-- Leftover bits of the previous byte, right-aligned. -/
  carry : Nat
  /-- How many leftover bits. -/
  leftover : Nat
deriving DecidableEq, Repr

/-- One iteration of R95's loop: the symbol it emits, and the variables after it. -/
def runningIndexStep (cb : CodeBuffer) (v : RunningIndex) : Symbol × RunningIndex :=
  let need := 5 - v.leftover
  let cur := (cb[v.idx].toNat >>> v.used) % 2 ^ need
  let symbol := BitVec.ofNat 5 ((v.carry ||| (cur <<< v.leftover)) &&& 0x1F)
  let used := v.used + need
  let remain := 8 - used
  if remain < 5 then
    (symbol, { idx := v.idx + 1, used := 0, carry := cb[v.idx].toNat >>> used, leftover := remain })
  else
    (symbol, { idx := v.idx, used := used, carry := 0, leftover := 0 })

/-- The symbols of `count` iterations of R95's loop from the variables `v`. -/
def runningIndexSymbols (cb : CodeBuffer) : Nat → RunningIndex → List Symbol
  | 0, _ => []
  | count + 1, v =>
    let (symbol, v') := runningIndexStep cb v
    symbol :: runningIndexSymbols cb count v'

/-- R95's loop from its initial variables, fifteen iterations. It is informative: R92 governs. -/
def runningIndexForm (cb : CodeBuffer) : List Symbol :=
  runningIndexSymbols cb 15 { idx := 0, used := 0, carry := 0, leftover := 0 }

end Sys2Proof.Machine
end

