-- ==== Sys2Proof/Machine/Pipeline.lean ====
section
/-! DEFINITION. The encode pipeline, operation ENCODE (`45_encode_pipeline.md` R113 to R116): six sub-operations under
`SEQ`. ENCODE is one step of the machine; `encodeStep` is one sub-operation of it (log entry 8). -/

namespace Sys2Proof.Machine

/-- The sub-operation of each step number (R113). -/
def encodeSubOperation (step : Fin 6) (s : State) : State :=
  match step with
  | 0 => packStage s
  | 1 => maskStage s.params.key s
  | 2 => rotrStage rot1Range (config.shift1 s.params.key) s
  | 3 => rotrStage rot2Range rot2Shift s
  | 4 => sympkStage s
  | 5 => rendStage s

/-- One sub-operation of ENCODE (R116): the one whose number is `SEQ`, then `SEQ <- SEQ + 1`, or 0 after step 5. Were
a sub-operation to fault, `SEQ` would stay at the failing step and nothing more be done (R116, R127). -/
def encodeStep (s : State) : State :=
  if s.faulted then s
  else
    let t := encodeSubOperation s.seq s
    if t.faulted then t else t.setSeq (t.seq + 1)

/-- ENCODE's effect: "At the start `SEQ = 0`", then the six sub-operations (R113, R116). -/
def encodeStage (s : State) : State := encodeStep^[6] (s.setSeq 0)

/-- `ENCODE` (R113). -/
def execEncode (s : State) : Host.Outcome State Fault Refusal := performUnlessFaulted encodeStage s

end Sys2Proof.Machine
end

