-- ==== Sys2Proof/Machine/Dispatch.lean ====
section
/-! DEFINITION. The meaning of every operation: one arm per constructor of `Instr` (`30_encoding.md` R45). -/

namespace Sys2Proof.Machine

def exec (i : Instr) (s : State) : Host.Outcome State Fault Refusal :=
  match i with
  | .pack => Sys2Proof.Machine.execPack s
  | .mask k => Sys2Proof.Machine.execMask k s
  | .rotr r n => Sys2Proof.Machine.execRotr r n s
  | .sympk => Sys2Proof.Machine.execSympk s
  | .rend => Sys2Proof.Machine.execRend s
  | .encode => Sys2Proof.Machine.execEncode s

end Sys2Proof.Machine
end

