-- ==== Sys2Proof/Machine/HostPort.lean ====
section
/-! DEFINITION. The host interface (`70_reset_and_hazards.md` R146): taking the host's next move, issuing a command
word, and what the host can read. -/

namespace Sys2Proof.Machine

/-- The block takes the host's next move: the move, and the state with it taken off; `none` while the host makes no
move. -/
def takeMove (s : State) : Option (HostMove × State) :=
  match s.moves with
  | [] => none
  | m :: rest => some (m, s.setMoves rest)

/-- A command word is performed: a word of the opcode map as its operation, any other raises IllegalCommand (R124).
A faulted block ignores either (R126, R128). -/
def issue (w : CmdWord) (s : State) : Host.Outcome State Fault Refusal :=
  match decode w with
  | .ok i => exec i s
  | .error _ => .next (raise .illegalCommand s)

/-- One move of the host (R146). -/
def performMove (m : HostMove) (s : State) : Host.Outcome State Fault Refusal :=
  match m with
  | .drive p => .next (s.setParams p)
  | .command w => issue w s
  | .reset => .next (applyReset s)

/-- The host issues the command word of the table word `w` as its next move (log entry 1). -/
def nextCommand (s : State) (w : Nat) : State := s.setMoves (.command (BitVec.ofNat 16 w) :: s.moves)

/-- What the host reads between operations; a read changes nothing (R38, R146). `SEQ` is not readable. -/
def hostView (s : State) : HostView := ⟨s.out, s.cb, s.sym, s.fault⟩

end Sys2Proof.Machine
end

