-- ==== Sys2Proof/Machine/Step.lean ====
section
/-! DEFINITION. One step of the machine: the host's next move, one operation at a time and each complete before the
next begins (`20_memory.md` R41). With no move left the block waits (`70_reset_and_hazards.md` R140). -/

namespace Sys2Proof.Machine

/-- One step. -/
def step (s : State) : Host.Outcome State Fault Refusal :=
  match takeMove s with
  | none => .next s
  | some (m, s') => performMove m s'

/-- The state in which the host's next move is to issue the table word `w`, so that the next step runs it. A command
word is always 16 bits (R46), so the number of bits is not needed. -/
def State.withFetchWord (s : State) (_nbits w : Nat) : State := nextCommand s w

end Sys2Proof.Machine
end

