-- ==== Sys2Proof/Machine/Assembler.lean ====
section
/-! DEFINITION. The assembler's text (`30_encoding.md` R51, R52): one operation per line, mnemonic in upper case,
operands separated by a comma, numbers decimal or `0x` hexadecimal, `;` starts a comment. A line is a list of
characters. What R51 does not say of the text is log entry 14. -/

namespace Sys2Proof.Machine

/-- Why a line is not assembled. -/
inductive AsmError where
  /-- The mnemonic is none of R51's or R52's. -/
  | unknownMnemonic
  /-- The operands are not as many as the mnemonic takes. -/
  | operandCount
  /-- An operand is not a decimal or `0x` hexadecimal number. -/
  | badNumber
  /-- A number is outside the bounds of R51. -/
  | outOfBounds
deriving DecidableEq, Repr

/-- The value of a digit in a base of at most 16. -/
def digitValue (base : Nat) (c : Char) : Option Nat :=
  let v :=
    if '0'.toNat ≤ c.toNat ∧ c.toNat ≤ '9'.toNat then some (c.toNat - '0'.toNat)
    else if 'A'.toNat ≤ c.toNat ∧ c.toNat ≤ 'F'.toNat then some (c.toNat - 'A'.toNat + 10)
    else if 'a'.toNat ≤ c.toNat ∧ c.toNat ≤ 'f'.toNat then some (c.toNat - 'a'.toNat + 10)
    else none
  match v with
  | some d => if d < base then some d else none
  | none => none

/-- Digits, most significant first, onto an accumulated value. -/
def parseDigits (base : Nat) : Nat → List Char → Option Nat
  | acc, [] => some acc
  | acc, c :: cs =>
    match digitValue base c with
    | some d => parseDigits base (acc * base + d) cs
    | none => none

/-- A decimal or `0x` hexadecimal number (R51). -/
def parseNumber : List Char → Option Nat
  | [] => none
  | '0' :: 'x' :: c :: cs => parseDigits 16 0 (c :: cs)
  | cs => parseDigits 10 0 cs

/-- A blank of the line: a space or a tab. -/
def isBlank (c : Char) : Bool := c == ' ' || c == '\t'

/-- The text without the blanks at its two ends. -/
def trimBlanks (cs : List Char) : List Char :=
  ((cs.dropWhile isBlank).reverse.dropWhile isBlank).reverse

/-- The pieces between the commas. -/
def splitCommas : List Char → List (List Char)
  | [] => [[]]
  | c :: cs =>
    match splitCommas cs with
    | [] => [[c]]
    | piece :: pieces => if c == ',' then [] :: piece :: pieces else (c :: piece) :: pieces

/-- The operands of a line, as numbers. -/
def parseOperands (cs : List Char) : Option (List Nat) :=
  if trimBlanks cs = [] then some [] else (splitCommas cs).mapM fun piece => parseNumber (trimBlanks piece)

/-- `MASK k` with `0 <= k <= 255` (R51). -/
def assembleMask (k : Nat) : Except AsmError Instr :=
  if k ≤ 255 then .ok (.mask (BitVec.ofNat 8 k)) else .error .outOfBounds

/-- `ROTR r, n` with `0 <= r <= 15` and `0 <= n <= 255` (R51). -/
def assembleRotr (r n : Nat) : Except AsmError Instr :=
  if r ≤ 15 ∧ n ≤ 255 then .ok (.rotr r n) else .error .outOfBounds

/-- `ROT1 k` for an assembly-time key `k` (R52). -/
def assembleRot1 (k : Nat) : Except AsmError Instr :=
  if k ≤ 255 then .ok (Pseudo.rot1 (BitVec.ofNat 8 k)).expand else .error .outOfBounds

/-- An operation without operands, and one with one operand. -/
def operandFree (i : Instr) : List Nat → Except AsmError Instr
  | [] => .ok i
  | _ :: _ => .error .operandCount

/-- An operation with one operand. -/
def oneOperand (f : Nat → Except AsmError Instr) : List Nat → Except AsmError Instr
  | [a] => f a
  | _ => .error .operandCount

/-- An operation with two operands. -/
def twoOperands (f : Nat → Nat → Except AsmError Instr) : List Nat → Except AsmError Instr
  | [a, b] => f a b
  | _ => .error .operandCount

/-- What a mnemonic does with its operands (R51, R52). -/
def assembleMnemonic (m : List Char) : Option (List Nat → Except AsmError Instr) :=
  if m = ['P', 'A', 'C', 'K'] then some (operandFree .pack)
  else if m = ['M', 'A', 'S', 'K'] then some (oneOperand assembleMask)
  else if m = ['R', 'O', 'T', 'R'] then some (twoOperands assembleRotr)
  else if m = ['S', 'Y', 'M', 'P', 'K'] then some (operandFree .sympk)
  else if m = ['R', 'E', 'N', 'D'] then some (operandFree .rend)
  else if m = ['E', 'N', 'C', 'O', 'D', 'E'] then some (operandFree .encode)
  else if m = ['R', 'O', 'T', '1'] then some (oneOperand assembleRot1)
  else if m = ['R', 'O', 'T', '2'] then some (operandFree Pseudo.rot2.expand)
  else if m = ['M', 'A', 'S', 'K', '0'] then some (operandFree Pseudo.mask0.expand)
  else none

/-- One line: no operation when only blanks and a comment stand in it, else one command word (R51, R52). -/
def assembleLine (line : List Char) : Except AsmError (Option CmdWord) :=
  let text := trimBlanks (line.takeWhile (· != ';'))
  if text = [] then .ok none
  else
    match assembleMnemonic (text.takeWhile fun c => !isBlank c) with
    | none => .error .unknownMnemonic
    | some f =>
      match parseOperands (text.dropWhile fun c => !isBlank c) with
      | none => .error .badNumber
      | some operands =>
        match f operands with
        | .ok i => .ok (some (encode i))
        | .error e => .error e

/-- A program: the command words of its lines, index 0 first (R52). -/
def assemble : List (List Char) → Except AsmError (List CmdWord)
  | [] => .ok []
  | line :: lines =>
    match assembleLine line, assemble lines with
    | .ok (some w), .ok ws => .ok (w :: ws)
    | .ok none, .ok ws => .ok ws
    | .error e, _ => .error e
    | _, .error e => .error e

end Sys2Proof.Machine
end

