-- ==== Sys2Proof/Safety.lean ====
section
/-! DEFINITION. What counts as a safe state, in the terms claims use (`60_exceptions.md` R127: "A model treats a
faulted state as never final"), and the invariant of the machine between operations. -/

namespace Sys2Proof.Safety

open Sys2Proof.Machine

/-- `OUT` may be taken as a code only where no fault is recorded (R127, R142). -/
def Final (s : State) : Prop := s.fault.valid = false

/-- Between operations: `SEQ = 0` (R20); no fault means code 0; a recorded fault has the code of IllegalCommand or
RangeFault, the two reachable causes (R120). -/
def Inv (s : State) : Prop :=
  s.seq = 0 ∧
  (s.fault.valid = false → s.fault.code = 0) ∧
  (s.fault.valid = true → s.fault.code = 1 ∨ s.fault.code = 2)

end Sys2Proof.Safety
end

