-- ==== Sys2Proof/Certificates/Slice0/Obligations.lean ====
section
/-! DEFINITION. The statements for the provers. Each says what the machine does, in terms of `exec` or `step`; the
rule of `spec/` it formalises stands in its docstring. A statement that gives the next state as `{ s with … }` states
the whole frame: every field not named is unchanged. -/

open Sys2Proof Sys2Proof.Machine

/-! ### Command words -/

/-- Decoding the word of a well-formed operation gives it back, for every operand value a word can carry (R47, R48). -/
def Obligations.DecodeOfEncodeIsTheInstruction : Prop :=
  ∀ i : Instr, i.wellFormed = true → decode (encode i) = .ok i

/-- Every word has at most one meaning, and its operation encodes to it (R50, which the spec derives). -/
def Obligations.EncodeOfDecodeIsTheWord : Prop :=
  ∀ (w : CmdWord) (i : Instr), decode w = .ok i → i.wellFormed = true ∧ encode i = w

/-- R48's match and mask table with R47's operand assembly: a word decodes to a row's operation exactly when
`w & mask == match`, with `rng` and `imm` used as they are, and a word that matches no row decodes to nothing. -/
def Obligations.DecodeFollowsTheOpcodeMap : Prop :=
  ∀ w : CmdWord,
    (decode w = .ok .pack ↔ w &&& 0xFFFF = 0x1000) ∧
    (decode w = .ok (.mask (w.extractLsb' 0 8)) ↔ w &&& 0xFF00 = 0x2000) ∧
    (decode w = .ok (.rotr (w.extractLsb' 8 4).toNat (w.extractLsb' 0 8).toNat) ↔ w &&& 0xF000 = 0x3000) ∧
    (decode w = .ok .sympk ↔ w &&& 0xFFFF = 0x4000) ∧
    (decode w = .ok .rend ↔ w &&& 0xFFFF = 0x5000) ∧
    (decode w = .ok .encode ↔ w &&& 0xFFFF = 0x6000) ∧
    ((w &&& 0xFFFF ≠ 0x1000 ∧ w &&& 0xFF00 ≠ 0x2000 ∧ w &&& 0xF000 ≠ 0x3000 ∧
      w &&& 0xFFFF ≠ 0x4000 ∧ w &&& 0xFFFF ≠ 0x5000 ∧ w &&& 0xFFFF ≠ 0x6000) →
      ∃ reason, decode w = .error reason)

/-- One word of each family, written out from the patterns of the opcode table, decodes to its operation. -/
def Obligations.SampleWordsDecode : Prop :=
  decode 0b0001000000000000 = .ok .pack ∧
  decode 0b0010000001011010 = .ok (.mask 0x5A) ∧
  decode 0b0011100000010101 = .ok (.rotr 8 21) ∧
  decode 0b0011111111111111 = .ok (.rotr 15 255) ∧
  decode 0b0100000000000000 = .ok .sympk ∧
  decode 0b0101000000000000 = .ok .rend ∧
  decode 0b0110000000000000 = .ok .encode ∧
  decodeTableWord 16 0x3815 = some (.rotr 8 21)

/-- The pseudo-operations expand to the words of R52. -/
def Obligations.PseudoOperationsExpand : Prop :=
  encode Pseudo.rot2.expand = 0x3815 ∧
  (∀ k : Byte, encode (Pseudo.rot1 k).expand = 0x3700 ||| (k &&& 0x0F).setWidth 16) ∧
  encode Pseudo.mask0.expand = 0x2000

/-- Six sample lines. By R51 and R52: `ROTR 8, 21`, `MASK 0x5A` with a comment after it and `ROT1 0x5A` give their
words, and the range 15 is accepted while the key 256 is not. By log entry 14 (DESIGN CHOICE, the model's and not
R51's): that a line holding only a comment gives no word, that no blank need follow the comma (`ROTR 15,0`), and the
name `outOfBounds` of the refusal. -/
def Obligations.AssemblerReadsItsText : Prop :=
  assembleLine ['R', 'O', 'T', 'R', ' ', '8', ',', ' ', '2', '1'] = .ok (some 0x3815) ∧
  assembleLine ['M', 'A', 'S', 'K', ' ', '0', 'x', '5', 'A', ' ', ';', 'k'] = .ok (some 0x205A) ∧
  assembleLine ['R', 'O', 'T', '1', ' ', '0', 'x', '5', 'A'] = .ok (some 0x370A) ∧
  assembleLine ['R', 'O', 'T', 'R', ' ', '1', '5', ',', '0'] = .ok (some 0x3F00) ∧
  assembleLine ['M', 'A', 'S', 'K', ' ', '2', '5', '6'] = .error .outOfBounds ∧
  assembleLine [';', 'x'] = .ok none

/-! ### The host's moves and the step -/

/-- A step in which the host issues a word of the opcode map is `exec` of the decoded operation, with the move taken
off the host's list. This is the model's form of R146 (log entry 1). -/
def Obligations.StepRunsTheIssuedCommand : Prop :=
  ∀ (s : State) (w : CmdWord) (rest : List HostMove) (i : Instr),
    s.moves = .command w :: rest → decode w = .ok i → step s = exec i { s with moves := rest }

/-- R49: a command word that matches no row of R48 raises IllegalCommand (code 1) and changes no other state. -/
def Obligations.IllegalWordRaisesIllegalCommand : Prop :=
  ∀ (s : State) (w : CmdWord) (rest : List HostMove),
    s.fault.valid = false → s.moves = .command w :: rest →
    (∀ row ∈ opcodeTable, w &&& row.mask ≠ row.pattern) →
    step s = .next { s with moves := rest, fault := ⟨true, 1⟩ }

/-- R128: while a fault is recorded every command word, legal or not, is ignored and the first cause is kept; nothing
but reset clears the fault. -/
def Obligations.FaultIsStickyUntilReset : Prop :=
  ∀ s : State, s.fault.valid = true →
    (∀ w rest, s.moves = .command w :: rest → step s = .next { s with moves := rest }) ∧
    (∀ t, step s = .next t → t.fault ≠ s.fault → ∃ rest, s.moves = .reset :: rest)

/-- R140: reset is accepted in every state, a faulted one too, and clears `FAULT` and `SEQ`. The ports `P` keep what
the host drives (R25). Nothing is said of `CB`, `SYM`, `OUT`, which reset leaves unspecified. -/
def Obligations.ResetClearsFaultAndSeq : Prop :=
  ∀ (s : State) (rest : List HostMove), s.moves = .reset :: rest →
    ∃ t, step s = .next t ∧ t.fault = ⟨false, 0⟩ ∧ t.seq = 0 ∧ t.params = s.params ∧ t.moves = rest

/-- The host drives all six ports between operations, and nothing else changes (the "drive P" line of R146). -/
def Obligations.DriveSetsThePortsOnly : Prop :=
  ∀ (s : State) (p : Params) (rest : List HostMove), s.moves = .drive p :: rest →
    step s = .next { s with params := p, moves := rest }

/-- With no move of the host pending the block waits. The model's choice for R140's "the block waits for the first
command word" (log entry 1). -/
def Obligations.IdleBlockWaits : Prop := ∀ s : State, s.moves = [] → step s = .next s

/-- Every step answers a next state: an operation always runs to its end, or to its fault, which is a next state
(R125, R148; log entry 9). -/
def Obligations.StepAlwaysAnswersANextState : Prop := ∀ s : State, ∃ t, step s = .next t

/-- `FAULT` (valid bit and code) and `SEQ` are 0 at reset, the values R25 calls exact. The last clause, that no move
of the host is pending, is no value of R25's: `moves` is the model's own field and its reset value the model's choice
(log entry 1, DESIGN CHOICE). -/
def Obligations.ResetStateExactValues : Prop :=
  State.reset.fault = ⟨false, 0⟩ ∧ State.reset.seq = 0 ∧ State.reset.moves = []

/-- The invariant holds at reset. -/
def Obligations.ResetStateMeetsTheInvariant : Prop := Safety.Inv State.reset

/-- Every step keeps the invariant: at every operation boundary `SEQ = 0` (R20), no fault means code 0, and a recorded
fault is IllegalCommand or RangeFault, so the causes 3 and 4 and the codes 5 to 7 never occur (R120). -/
def Obligations.StepKeepsTheInvariant : Prop :=
  ∀ s t : State, Safety.Inv s → step s = .next t → Safety.Inv t

/-- No operation writes the ports `P` (R14), applies a reset, or takes a move of the host. -/
def Obligations.OperationsNeverWriteThePorts : Prop :=
  ∀ (i : Instr) (s t : State), exec i s = .next t →
    t.params = s.params ∧ t.resets = s.resets ∧ t.moves = s.moves

/-- A fault is precise (R120, R127), and the only operation that raises one is ROTR with a range above 8 (R123): it
writes `FAULT` and nothing else. -/
def Obligations.FaultsArePreciseAndOnlyFromRotr : Prop :=
  ∀ (i : Instr) (s t : State), s.fault.valid = false → exec i s = .next t → t.fault.valid = true →
    (∃ r n, i = .rotr r n ∧ 8 < r) ∧ t = { s with fault := ⟨true, 2⟩ }

/-- The spec's defaults for the four open parameters, which the model takes: R12 (log entry 4), R114 (log entry 5),
R92 and R98 (log entry 6), R17 and R18's ASCII column (log entry 7). The model's choice, no rule of DOC0. -/
def Obligations.ParametersHaveTheDefaults : Prop :=
  (∀ c : Colour,
    redChannel config.rgbLayout c = c.extractLsb' 16 8 ∧
    greenChannel config.rgbLayout c = c.extractLsb' 8 8 ∧
    blueChannel config.rgbLayout c = c.extractLsb' 0 8) ∧
  (∀ k : Byte, config.shift1 k = k.toNat % 16) ∧
  config.symBitOrder = .lsbFirst ∧
  alphabet.toList.map config.charCode =
    [0x42, 0x43, 0x44, 0x46, 0x47, 0x48, 0x4A, 0x4B, 0x4C, 0x4D, 0x4E, 0x50, 0x51, 0x52, 0x53, 0x54,
     0x56, 0x57, 0x5A, 0x62, 0x63, 0x64, 0x66, 0x67, 0x68, 0x6A, 0x6B, 0x6D, 0x6E, 0x70, 0x71, 0x73]

/-! ### PACK -/

/-- R60: `pack15(c) = (blue5 << 10) | (green5 << 5) | red5`, each channel without its low three bits. -/
def Obligations.PackedColourIsBlueGreenRed : Prop :=
  ∀ (layout : RgbLayout) (c : Colour),
    (pack15 layout c).toNat =
      (blueChannel layout c).toNat / 8 * 1024 + (greenChannel layout c).toNat / 8 * 32
        + (redChannel layout c).toNat / 8

/-- R61: PACK writes all nine cells of `CB` from `P`, and nothing else. -/
def Obligations.PackWritesTheFieldMap : Prop :=
  ∀ s : State, s.fault.valid = false →
    let pb := (pack15 config.rgbLayout s.params.bg).setWidth 16
    let pf := (pack15 config.rgbLayout s.params.fg).setWidth 16
    exec .pack s = .next { s with cb :=
      #v[ pb.extractLsb' 0 8,
          pb.extractLsb' 8 8,
          pf.extractLsb' 0 8,
          pf.extractLsb' 8 8,
          s.params.icon,
          s.params.pat,
          pb.extractLsb' 0 8 ^^^ pf.extractLsb' 0 8 ^^^ s.params.icon ^^^ s.params.tid.extractLsb' 8 8,
          pb.extractLsb' 8 8 ^^^ pf.extractLsb' 8 8 ^^^ s.params.pat ^^^ s.params.tid.extractLsb' 0 8,
          s.params.key ] }

/-- R62: after PACK, bit 7 of `CB[1]` and of `CB[3]` is 0. -/
def Obligations.PackedHighBytesHaveBitSevenClear : Prop :=
  ∀ s : State, s.fault.valid = false →
    ∃ t, exec .pack s = .next t ∧ t.cb[1].getLsbD 7 = false ∧ t.cb[3].getLsbD 7 = false

/-- R63: after PACK the checksum bytes unfold to the trainer identifier's bytes, and do not depend on the key. -/
def Obligations.ChecksumsHoldTheTrainerIdentifier : Prop :=
  ∀ (s : State) (k : Byte), s.fault.valid = false →
    ∃ t u, exec .pack s = .next t ∧ exec .pack { s with params := { s.params with key := k } } = .next u ∧
      t.cb[6] ^^^ t.cb[0] ^^^ t.cb[2] ^^^ t.cb[4] = s.params.tid.extractLsb' 8 8 ∧
      t.cb[7] ^^^ t.cb[1] ^^^ t.cb[3] ^^^ t.cb[5] = s.params.tid.extractLsb' 0 8 ∧
      u.cb[6] = t.cb[6] ∧ u.cb[7] = t.cb[7] ∧ u.cb[8] = k

/-! ### MASK -/

/-- R85: the high nibble kept and copied into the low nibble, `0x11 * k[7:4]`; zero exactly when `k < 0x10`. -/
def Obligations.MaskByteReplicatesTheHighNibble : Prop :=
  ∀ k : Byte,
    maskByte k = (k &&& 0xF0) ||| ((k &&& 0xF0) >>> 4) ∧
    (maskByte k).toNat = 17 * (k.toNat / 16) ∧
    (maskByte k = 0 ↔ k.toNat < 0x10)

/-- R86: bytes 0 to 7 are XORed with the mask, byte 8 is untouched, nothing else is written. -/
def Obligations.MaskXorsTheFirstEightBytes : Prop :=
  ∀ (s : State) (k : Byte), s.fault.valid = false →
    ∃ t, exec (.mask k) s = .next t ∧ t = { s with cb := t.cb } ∧
      (∀ i : Fin 9, i.val < 8 → t.cb[i] = s.cb[i] ^^^ ((k &&& 0xF0) ||| ((k &&& 0xF0) >>> 4))) ∧
      t.cb[8] = s.cb[8]

/-- R88: two MASKs make one with the XOR of their keys; the same key twice restores the state exactly. -/
def Obligations.MasksCombineByXor : Prop :=
  ∀ (s : State) (a b : Byte),
    ∃ t, exec (.mask a) s = .next t ∧ exec (.mask b) t = exec (.mask (a ^^^ b)) s ∧ exec (.mask a) t = .next s

/-- R88: MASK commutes with `ROTR 7, n` whenever `n` is a multiple of 4. -/
def Obligations.MaskCommutesWithNibbleRotation : Prop :=
  ∀ (s : State) (k : Byte) (m : Nat),
    ∃ t u v, exec (.mask k) s = .next t ∧ exec (.rotr 7 (4 * m)) t = .next u ∧
      exec (.rotr 7 (4 * m)) s = .next v ∧ exec (.mask k) v = .next u

/-! ### ROTR -/

/-- R72: the byte step moves the last ring byte to the front and the others one index up, leaves the bytes outside the
ring, and `q` byte steps are one rotation of the ring's bytes by `q mod len` places. -/
def Obligations.ByteStepRotatesTheRingBytes : Prop :=
  ∀ (r : Fin 9) (cb : CodeBuffer),
    (byteRot r cb)[0] = cb[r] ∧
    (∀ i : Fin 9, 1 ≤ i.val → i ≤ r → (byteRot r cb)[i] = cb[i.val - 1]) ∧
    (∀ i : Fin 9, r < i → (byteRot r cb)[i] = cb[i]) ∧
    (∀ (q : Nat) (i j : Fin 9), i ≤ r → j.val = (i.val + q) % (r.val + 1) → ((byteRot r)^[q] cb)[j] = cb[i])

/-- R73: in the sub-byte step a ring byte is the old byte shifted right by `k` with the low `k` bits of the old byte
before it (byte `r` before byte 0) above; bytes outside the ring stay. -/
def Obligations.SubByteStepCarriesLowBits : Prop :=
  ∀ (r : Fin 9) (k : Nat) (cb : CodeBuffer), 1 ≤ k → k ≤ 7 →
    (subRot r k cb)[0].toNat = cb[0].toNat / 2 ^ k + cb[r].toNat % 2 ^ k * 2 ^ (8 - k) ∧
    (∀ i : Fin 9, 1 ≤ i.val → i ≤ r →
      (subRot r k cb)[i].toNat = cb[i].toNat / 2 ^ k + cb[i.val - 1].toNat % 2 ^ k * 2 ^ (8 - k)) ∧
    (∀ i : Fin 9, r < i → (subRot r k cb)[i] = cb[i])

/-- R75 with R71's split and R74's special case: ROTR with a legal range does `n div 8` byte steps, then the sub-byte
step by `n mod 8`, skipped when that is 0; it writes `CB` and nothing else. -/
def Obligations.RotrDoesTheTwoPhases : Prop :=
  ∀ (s : State) (r : Fin 9) (n : Nat), s.fault.valid = false →
    let moved := (byteRot r)^[n / 8] s.cb
    exec (.rotr r.val n) s = .next { s with cb := if n % 8 = 0 then moved else subRot r (n % 8) moved }

/-- R76: with the ring position of bit `b` of byte `i` being `8 i + (7 - b)`, ROTR moves the bit at position `p` to
position `(p + n) mod W`, for every natural `n`, and leaves every byte outside the ring and all other state. -/
def Obligations.RotrMovesEveryRingBit : Prop :=
  ∀ (s : State) (r : Fin 9) (n : Nat), s.fault.valid = false →
    ∃ t, exec (.rotr r.val n) s = .next t ∧ t = { s with cb := t.cb } ∧
      (∀ (i i' : Fin 9) (b b' : Fin 8), i ≤ r → i' ≤ r →
        8 * i'.val + (7 - b'.val) = (8 * i.val + (7 - b.val) + n) % (8 * (r.val + 1)) →
        t.cb[i'].getLsbD b'.val = s.cb[i].getLsbD b.val) ∧
      (∀ i : Fin 9, r < i → t.cb[i] = s.cb[i])

/-- R78: the amount counts modulo the ring's width. -/
def Obligations.RotrAmountCountsModuloTheRing : Prop :=
  ∀ (s : State) (r : Fin 9) (n : Nat), exec (.rotr r.val n) s = exec (.rotr r.val (n % (8 * (r.val + 1)))) s

/-- R79: two rotations of one ring add up. -/
def Obligations.RotationsOfOneRingAddUp : Prop :=
  ∀ (s : State) (r : Fin 9) (a b : Nat),
    ∃ t, exec (.rotr r.val a) s = .next t ∧ exec (.rotr r.val b) t = exec (.rotr r.val (a + b)) s

/-- R79: `ROTR r, ((W - (n mod W)) mod W)` undoes `ROTR r, n` exactly. -/
def Obligations.RotrIsUndoneByTheComplement : Prop :=
  ∀ (s : State) (r : Fin 9) (n : Nat),
    let width := 8 * (r.val + 1)
    ∃ t, exec (.rotr r.val n) s = .next t ∧ exec (.rotr r.val ((width - n % width) % width)) t = .next s

/-- R79: the number of 1 bits in `CB[0..r]` is unchanged. -/
def Obligations.RotrKeepsTheNumberOfOnes : Prop :=
  ∀ (s : State) (r : Fin 9) (n : Nat),
    ∃ t, exec (.rotr r.val n) s = .next t ∧
      (Finset.univ.filter fun p : Fin 9 × Fin 8 => p.1 ≤ r ∧ t.cb[p.1].getLsbD p.2.val = true).card =
      (Finset.univ.filter fun p : Fin 9 × Fin 8 => p.1 ≤ r ∧ s.cb[p.1].getLsbD p.2.val = true).card

/-- R77: a range above 8 raises RangeFault (code 2) whatever the amount, and no byte is moved. -/
def Obligations.RotrOutOfBoundsRaisesRangeFault : Prop :=
  ∀ (s : State) (r n : Nat), s.fault.valid = false → 8 < r →
    exec (.rotr r n) s = .next { s with fault := ⟨true, 2⟩ }

/-! ### SYMPK -/

/-- R91 and R92 with the default bit order (decision D7, log entry 6): symbol `i` is the sum over `t` of stream bit
`(5 i + t) mod 72` times `2^t`, the stream being byte 0 first and bit 0 of a byte first; `SYM` and nothing else is
written. -/
def Obligations.SympkCutsTheStreamIntoSymbols : Prop :=
  ∀ s : State, s.fault.valid = false →
    ∃ t, exec .sympk s = .next t ∧ t = { s with sym := t.sym } ∧
      ∀ i : Fin 15, t.sym[i].toNat =
        ∑ x : Fin 5, (s.cb[(5 * i.val + x.val) % 72 / 8].getLsbD ((5 * i.val + x.val) % 72 % 8)).toNat * 2 ^ x.val

/-- R93's table, one line per symbol (it rests on R92's default bit order, log entry 6). -/
def Obligations.SymbolsByTheirBytes : Prop :=
  ∀ s : State, s.fault.valid = false →
    ∃ t, exec .sympk s = .next t ∧
      let b := fun i : Fin 9 => s.cb[i].toNat
      t.sym.toList.map BitVec.toNat =
        [ b 0 &&& 0x1F,
          ((b 0 >>> 5) ||| (b 1 <<< 3)) &&& 0x1F,
          (b 1 >>> 2) &&& 0x1F,
          ((b 1 >>> 7) ||| (b 2 <<< 1)) &&& 0x1F,
          ((b 2 >>> 4) ||| (b 3 <<< 4)) &&& 0x1F,
          (b 3 >>> 1) &&& 0x1F,
          ((b 3 >>> 6) ||| (b 4 <<< 2)) &&& 0x1F,
          (b 4 >>> 3) &&& 0x1F,
          b 5 &&& 0x1F,
          ((b 5 >>> 5) ||| (b 6 <<< 3)) &&& 0x1F,
          (b 6 >>> 2) &&& 0x1F,
          ((b 6 >>> 7) ||| (b 7 <<< 1)) &&& 0x1F,
          ((b 7 >>> 4) ||| (b 8 <<< 4)) &&& 0x1F,
          (b 8 >>> 1) &&& 0x1F,
          ((b 8 >>> 6) ||| (b 0 <<< 2)) &&& 0x1F ]

/-- R94: the top three bits of the last symbol are the bottom three of `CB[0]` and of the first symbol (default bit
order, log entry 6). -/
def Obligations.LastSymbolReusesThreeBits : Prop :=
  ∀ s : State, s.fault.valid = false →
    ∃ t, exec .sympk s = .next t ∧
      t.sym[14].extractLsb' 2 3 = s.cb[0].extractLsb' 0 3 ∧ t.sym[0].extractLsb' 0 3 = s.cb[0].extractLsb' 0 3

/-- R95: DOC0's running-index loop emits the symbols of R92 for every `CB`. -/
def Obligations.RunningIndexLoopEmitsTheSymbols : Prop :=
  ∀ cb : CodeBuffer, runningIndexForm cb = (packSymbols .lsbFirst cb).toList

/-- R97: the fifteen symbols determine the buffer, in either bit order of R98; so SYMPK loses nothing of `CB`. -/
def Obligations.SymbolsDetermineTheBuffer : Prop :=
  (∀ (order : SymBitOrder) (cb cb' : CodeBuffer), packSymbols order cb = packSymbols order cb' → cb = cb') ∧
  (∀ s s' : State, s.fault.valid = false → s'.fault.valid = false →
    ∃ t t', exec .sympk s = .next t ∧ exec .sympk s' = .next t' ∧ (t.sym = t'.sym → s.cb = s'.cb))

/-! ### REND -/

/-- R105: `OUT[i]` is the code of `ALPHA[SYM[i]]` for all fifteen cells, and nothing else is written. -/
def Obligations.RendLooksUpTheAlphabet : Prop :=
  ∀ s : State, s.fault.valid = false →
    ∃ t, exec .rend s = .next t ∧ t = { s with out := t.out } ∧
      ∀ i : Fin 15, t.out[i] = config.charCode alphabet[s.sym[i].toNat]

/-- R18: the 32 characters in index order, and that the table is one to one. -/
def Obligations.AlphabetIsTheListOfTheSpec : Prop :=
  alphabet.toList =
    ['B', 'C', 'D', 'F', 'G', 'H', 'J', 'K', 'L', 'M', 'N', 'P', 'Q', 'R', 'S', 'T', 'V', 'W', 'Z',
     'b', 'c', 'd', 'f', 'g', 'h', 'j', 'k', 'm', 'n', 'p', 'q', 's'] ∧
  ∀ u v : Symbol, letter u = letter v → u = v

/-- R108: different symbol sequences render to different strings (with the character codes of log entry 7). -/
def Obligations.RendIsOneToOne : Prop :=
  ∀ s s' : State, s.fault.valid = false → s'.fault.valid = false →
    ∃ t t', exec .rend s = .next t ∧ exec .rend s' = .next t' ∧ (t.out = t'.out → s.sym = s'.sym)

/-! ### ENCODE -/

/-- R113: ENCODE is PACK, MASK P.key, ROTR 7 shift1(P.key), ROTR 8 21, SYMPK, REND in that order, each on the state the
one before left, with `SEQ` 0 at completion. `shift1` is the parameter, whatever its value. -/
def Obligations.EncodeIsTheSixOperationsInOrder : Prop :=
  ∀ s : State, s.fault.valid = false →
    ∃ s1 s2 s3 s4 s5 s6,
      exec .pack s = .next s1 ∧
      exec (.mask s.params.key) s1 = .next s2 ∧
      exec (.rotr 7 (config.shift1 s.params.key)) s2 = .next s3 ∧
      exec (.rotr 8 21) s3 = .next s4 ∧
      exec .sympk s4 = .next s5 ∧
      exec .rend s5 = .next s6 ∧
      exec .encode s = .next { s6 with seq := 0 }

/-- R116: each sub-operation is the one whose step number is `SEQ`, which then counts up, and is 0 after step 5; ENCODE
is six of them from `SEQ = 0` (one step of the machine: the model's choice among those of R116, log entry 8). -/
def Obligations.EncodeStepsUnderSeq : Prop :=
  (∀ s : State, s.fault.valid = false →
    ∃ t, exec (match s.seq with
        | 0 => .pack
        | 1 => .mask s.params.key
        | 2 => .rotr 7 (config.shift1 s.params.key)
        | 3 => .rotr 8 21
        | 4 => .sympk
        | 5 => .rend) s = .next t ∧
      t.seq = s.seq ∧ (encodeStep s).seq.val = (s.seq.val + 1) % 6 ∧
      encodeStep s = { t with seq := (encodeStep s).seq }) ∧
  (∀ s : State, s.fault.valid = false → exec .encode s = .next (encodeStep^[6] { s with seq := 0 }))

/-- ENCODE's frame and R141: its result depends on `P` alone and on nothing left by an earlier run; it writes `CB`,
`SYM`, `OUT` and leaves `SEQ` at 0. -/
def Obligations.EncodeDependsOnTheParametersOnly : Prop :=
  ∀ s s' : State, s.fault.valid = false → s'.fault.valid = false → s.params = s'.params →
    ∃ t t', exec .encode s = .next t ∧ exec .encode s' = .next t' ∧
      t.cb = t'.cb ∧ t.sym = t'.sym ∧ t.out = t'.out ∧
      t = { s with cb := t.cb, sym := t.sym, out := t.out, seq := 0 }

/-- R115: where the key bits end up, whatever `shift1` is: `CB[1][2:0] = P.key[7:5]` and `CB[2][7:3] = P.key[4:0]`. -/
def Obligations.EncodePlacesTheKeyBits : Prop :=
  ∀ s : State, s.fault.valid = false →
    ∃ t, exec .encode s = .next t ∧
      t.cb[1].extractLsb' 0 3 = s.params.key.extractLsb' 5 3 ∧
      t.cb[2].extractLsb' 3 5 = s.params.key.extractLsb' 0 5

/-- R118: with the other parameters fixed, different keys give different strings (with the character codes of log
entry 7). -/
def Obligations.DifferentKeysGiveDifferentCodes : Prop :=
  ∀ (s : State) (k k' : Byte), s.fault.valid = false → k ≠ k' →
    ∃ t t', exec .encode { s with params := { s.params with key := k } } = .next t ∧
      exec .encode { s with params := { s.params with key := k' } } = .next t' ∧ t.out ≠ t'.out

/-- The known vector V1 of `95_test_vectors.md` (derived there; it rests on decisions D1, D7 and D8, log entries 4, 6
and 7): buffer and string of DOC0's one scenario. -/
def Obligations.KnownVectorEncodes : Prop :=
  ∀ s : State, s.fault.valid = false →
    s.params = { bg := 0xF850A1, fg := 0xF850F8, icon := 1, pat := 11, tid := 38381, key := 0 } →
    ∃ t, exec .encode s = .next t ∧
      t.cb = #v[0xA6, 0x50, 0x02, 0xFA, 0x8A, 0xFB, 0xE8, 0x08, 0x5C] ∧
      t.out.toList = [0x4A, 0x48, 0x63, 0x47, 0x42, 0x70, 0x50, 0x57, 0x6D, 0x4B, 0x6B, 0x57, 0x42, 0x53, 0x6A]
end

