-- ==== Sys2Proof/Laws/Decode.lean ====
section
/-! SUPPORT. The fields of a command word put together by `commandWord`, and the word put together from its fields. -/

namespace Sys2Proof

theorem opField_commandWord (op rng : BitVec 4) (imm : Byte) : opField (commandWord op rng imm) = op := by
  apply BitVec.eq_of_getLsbD_eq
  intro j hj
  simp only [opField, commandWord, BitVec.getLsbD_extractLsb', BitVec.getLsbD_append, hj, decide_true, Bool.true_and]
  rw [if_neg (by omega), if_neg (by omega)]
  congr 1
  omega

theorem rngField_commandWord (op rng : BitVec 4) (imm : Byte) : rngField (commandWord op rng imm) = rng := by
  apply BitVec.eq_of_getLsbD_eq
  intro j hj
  simp only [rngField, commandWord, BitVec.getLsbD_extractLsb', BitVec.getLsbD_append, hj, decide_true, Bool.true_and]
  rw [if_neg (by omega), if_pos (by omega)]
  congr 1
  omega

theorem immField_commandWord (op rng : BitVec 4) (imm : Byte) : immField (commandWord op rng imm) = imm := by
  apply BitVec.eq_of_getLsbD_eq
  intro j hj
  simp only [immField, commandWord, BitVec.getLsbD_extractLsb', BitVec.getLsbD_append, hj, decide_true, Bool.true_and]
  rw [if_pos (by omega)]
  congr 1
  omega

/-- A word is its three fields (R46). -/
theorem commandWord_fields (w : CmdWord) : commandWord (opField w) (rngField w) (immField w) = w := by
  apply BitVec.eq_of_getLsbD_eq
  intro j hj
  simp only [commandWord, opField, rngField, immField, BitVec.getLsbD_append, BitVec.getLsbD_extractLsb']
  split
  · simp [*]
  · split
    · rw [decide_eq_true (by omega), Bool.true_and]
      congr 1
      omega
    · rw [decide_eq_true (by omega), Bool.true_and]
      congr 1
      omega

end Sys2Proof
end

