-- ==== Sys2Proof/Laws/State.lean ====
section
/-! SUPPORT. One lemma per field per writer of the register files: what a write changes and what it leaves. -/

namespace Sys2Proof.Machine

@[simp] theorem State.setCode_params (s : State) (v : CodeBuffer) : (s.setCode v).params = s.params := rfl
@[simp] theorem State.setCode_cb (s : State) (v : CodeBuffer) : (s.setCode v).cb = v := rfl
@[simp] theorem State.setCode_sym (s : State) (v : CodeBuffer) : (s.setCode v).sym = s.sym := rfl
@[simp] theorem State.setCode_out (s : State) (v : CodeBuffer) : (s.setCode v).out = s.out := rfl
@[simp] theorem State.setCode_fault (s : State) (v : CodeBuffer) : (s.setCode v).fault = s.fault := rfl
@[simp] theorem State.setCode_seq (s : State) (v : CodeBuffer) : (s.setCode v).seq = s.seq := rfl
@[simp] theorem State.setCode_resets (s : State) (v : CodeBuffer) : (s.setCode v).resets = s.resets := rfl
@[simp] theorem State.setCode_moves (s : State) (v : CodeBuffer) : (s.setCode v).moves = s.moves := rfl

@[simp] theorem State.setCode_self (s : State) : s.setCode s.cb = s := rfl
@[simp] theorem State.setCode_setCode (s : State) (u v : CodeBuffer) : (s.setCode u).setCode v = s.setCode v := rfl
@[simp] theorem State.setCode_faulted (s : State) (v : CodeBuffer) : (s.setCode v).faulted = s.faulted := rfl

@[simp] theorem State.setSymbols_params (s : State) (v : SymbolFile) : (s.setSymbols v).params = s.params := rfl
@[simp] theorem State.setSymbols_cb (s : State) (v : SymbolFile) : (s.setSymbols v).cb = s.cb := rfl
@[simp] theorem State.setSymbols_sym (s : State) (v : SymbolFile) : (s.setSymbols v).sym = v := rfl
@[simp] theorem State.setSymbols_out (s : State) (v : SymbolFile) : (s.setSymbols v).out = s.out := rfl
@[simp] theorem State.setSymbols_fault (s : State) (v : SymbolFile) : (s.setSymbols v).fault = s.fault := rfl
@[simp] theorem State.setSymbols_seq (s : State) (v : SymbolFile) : (s.setSymbols v).seq = s.seq := rfl
@[simp] theorem State.setSymbols_resets (s : State) (v : SymbolFile) : (s.setSymbols v).resets = s.resets := rfl
@[simp] theorem State.setSymbols_moves (s : State) (v : SymbolFile) : (s.setSymbols v).moves = s.moves := rfl

@[simp] theorem State.setSymbols_self (s : State) : s.setSymbols s.sym = s := rfl
@[simp] theorem State.setSymbols_setSymbols (s : State) (u v : SymbolFile) : (s.setSymbols u).setSymbols v = s.setSymbols v := rfl
@[simp] theorem State.setSymbols_faulted (s : State) (v : SymbolFile) : (s.setSymbols v).faulted = s.faulted := rfl

@[simp] theorem State.setOut_params (s : State) (v : OutputFile) : (s.setOut v).params = s.params := rfl
@[simp] theorem State.setOut_cb (s : State) (v : OutputFile) : (s.setOut v).cb = s.cb := rfl
@[simp] theorem State.setOut_sym (s : State) (v : OutputFile) : (s.setOut v).sym = s.sym := rfl
@[simp] theorem State.setOut_out (s : State) (v : OutputFile) : (s.setOut v).out = v := rfl
@[simp] theorem State.setOut_fault (s : State) (v : OutputFile) : (s.setOut v).fault = s.fault := rfl
@[simp] theorem State.setOut_seq (s : State) (v : OutputFile) : (s.setOut v).seq = s.seq := rfl
@[simp] theorem State.setOut_resets (s : State) (v : OutputFile) : (s.setOut v).resets = s.resets := rfl
@[simp] theorem State.setOut_moves (s : State) (v : OutputFile) : (s.setOut v).moves = s.moves := rfl

@[simp] theorem State.setOut_self (s : State) : s.setOut s.out = s := rfl
@[simp] theorem State.setOut_setOut (s : State) (u v : OutputFile) : (s.setOut u).setOut v = s.setOut v := rfl
@[simp] theorem State.setOut_faulted (s : State) (v : OutputFile) : (s.setOut v).faulted = s.faulted := rfl

@[simp] theorem State.setFault_params (s : State) (v : FaultReg) : (s.setFault v).params = s.params := rfl
@[simp] theorem State.setFault_cb (s : State) (v : FaultReg) : (s.setFault v).cb = s.cb := rfl
@[simp] theorem State.setFault_sym (s : State) (v : FaultReg) : (s.setFault v).sym = s.sym := rfl
@[simp] theorem State.setFault_out (s : State) (v : FaultReg) : (s.setFault v).out = s.out := rfl
@[simp] theorem State.setFault_fault (s : State) (v : FaultReg) : (s.setFault v).fault = v := rfl
@[simp] theorem State.setFault_seq (s : State) (v : FaultReg) : (s.setFault v).seq = s.seq := rfl
@[simp] theorem State.setFault_resets (s : State) (v : FaultReg) : (s.setFault v).resets = s.resets := rfl
@[simp] theorem State.setFault_moves (s : State) (v : FaultReg) : (s.setFault v).moves = s.moves := rfl

@[simp] theorem State.setFault_self (s : State) : s.setFault s.fault = s := rfl
@[simp] theorem State.setFault_setFault (s : State) (u v : FaultReg) : (s.setFault u).setFault v = s.setFault v := rfl

@[simp] theorem State.setSeq_params (s : State) (v : Fin 6) : (s.setSeq v).params = s.params := rfl
@[simp] theorem State.setSeq_cb (s : State) (v : Fin 6) : (s.setSeq v).cb = s.cb := rfl
@[simp] theorem State.setSeq_sym (s : State) (v : Fin 6) : (s.setSeq v).sym = s.sym := rfl
@[simp] theorem State.setSeq_out (s : State) (v : Fin 6) : (s.setSeq v).out = s.out := rfl
@[simp] theorem State.setSeq_fault (s : State) (v : Fin 6) : (s.setSeq v).fault = s.fault := rfl
@[simp] theorem State.setSeq_seq (s : State) (v : Fin 6) : (s.setSeq v).seq = v := rfl
@[simp] theorem State.setSeq_resets (s : State) (v : Fin 6) : (s.setSeq v).resets = s.resets := rfl
@[simp] theorem State.setSeq_moves (s : State) (v : Fin 6) : (s.setSeq v).moves = s.moves := rfl

@[simp] theorem State.setSeq_self (s : State) : s.setSeq s.seq = s := rfl
@[simp] theorem State.setSeq_setSeq (s : State) (u v : Fin 6) : (s.setSeq u).setSeq v = s.setSeq v := rfl
@[simp] theorem State.setSeq_faulted (s : State) (v : Fin 6) : (s.setSeq v).faulted = s.faulted := rfl

@[simp] theorem State.setParams_params (s : State) (v : Params) : (s.setParams v).params = v := rfl
@[simp] theorem State.setParams_cb (s : State) (v : Params) : (s.setParams v).cb = s.cb := rfl
@[simp] theorem State.setParams_sym (s : State) (v : Params) : (s.setParams v).sym = s.sym := rfl
@[simp] theorem State.setParams_out (s : State) (v : Params) : (s.setParams v).out = s.out := rfl
@[simp] theorem State.setParams_fault (s : State) (v : Params) : (s.setParams v).fault = s.fault := rfl
@[simp] theorem State.setParams_seq (s : State) (v : Params) : (s.setParams v).seq = s.seq := rfl
@[simp] theorem State.setParams_resets (s : State) (v : Params) : (s.setParams v).resets = s.resets := rfl
@[simp] theorem State.setParams_moves (s : State) (v : Params) : (s.setParams v).moves = s.moves := rfl

@[simp] theorem State.setParams_self (s : State) : s.setParams s.params = s := rfl
@[simp] theorem State.setParams_setParams (s : State) (u v : Params) : (s.setParams u).setParams v = s.setParams v := rfl
@[simp] theorem State.setParams_faulted (s : State) (v : Params) : (s.setParams v).faulted = s.faulted := rfl

@[simp] theorem State.setMoves_params (s : State) (v : List HostMove) : (s.setMoves v).params = s.params := rfl
@[simp] theorem State.setMoves_cb (s : State) (v : List HostMove) : (s.setMoves v).cb = s.cb := rfl
@[simp] theorem State.setMoves_sym (s : State) (v : List HostMove) : (s.setMoves v).sym = s.sym := rfl
@[simp] theorem State.setMoves_out (s : State) (v : List HostMove) : (s.setMoves v).out = s.out := rfl
@[simp] theorem State.setMoves_fault (s : State) (v : List HostMove) : (s.setMoves v).fault = s.fault := rfl
@[simp] theorem State.setMoves_seq (s : State) (v : List HostMove) : (s.setMoves v).seq = s.seq := rfl
@[simp] theorem State.setMoves_resets (s : State) (v : List HostMove) : (s.setMoves v).resets = s.resets := rfl
@[simp] theorem State.setMoves_moves (s : State) (v : List HostMove) : (s.setMoves v).moves = v := rfl

@[simp] theorem State.setMoves_self (s : State) : s.setMoves s.moves = s := rfl
@[simp] theorem State.setMoves_setMoves (s : State) (u v : List HostMove) : (s.setMoves u).setMoves v = s.setMoves v := rfl
@[simp] theorem State.setMoves_faulted (s : State) (v : List HostMove) : (s.setMoves v).faulted = s.faulted := rfl

theorem State.setFault_faulted (s : State) (v : FaultReg) : (s.setFault v).faulted = v.valid := rfl

/-- Two states with the same fields are the same state. -/
theorem State.ext_fields (s t : State) (h1 : s.params = t.params) (h2 : s.cb = t.cb) (h3 : s.sym = t.sym) (h4 : s.out = t.out)
    (h5 : s.fault = t.fault) (h6 : s.seq = t.seq) (h7 : s.resets = t.resets) (h8 : s.moves = t.moves) : s = t := by
  cases s; cases t; simp_all

end Sys2Proof.Machine
end

