-- ==== Sys2Proof/Laws/Ops.lean ====
section
/-! SUPPORT. One lemma per shared operation: everything it can do. Callers cite these and do not unfold. -/

namespace Sys2Proof.Machine

theorem State.faulted_eq (s : State) : s.faulted = s.fault.valid := rfl

/-- Raising in a block without a fault records the cause and nothing else (R127). -/
theorem raise_unfaulted (c : Cause) (s : State) (h : s.fault.valid = false) :
    raise c s = s.setFault ⟨true, c.code⟩ := by
  simp [raise, State.faulted, h, FaultReg.record]

/-- A second fault is not recorded (R128). -/
theorem raise_faulted (c : Cause) (s : State) (h : s.fault.valid = true) : raise c s = s := by
  simp [raise, State.faulted, h]

/-- Whatever is raised, `FAULT.v` is 1 afterwards. -/
@[simp] theorem raise_valid (c : Cause) (s : State) : (raise c s).fault.valid = true := by
  by_cases h : s.fault.valid = true
  · simp [raise_faulted c s h, h]
  · simp [raise_unfaulted c s (by simpa using h)]

@[simp] theorem raise_params (c : Cause) (s : State) : (raise c s).params = s.params := by
  simp only [raise]; split <;> rfl

@[simp] theorem raise_cb (c : Cause) (s : State) : (raise c s).cb = s.cb := by
  simp only [raise]; split <;> rfl

@[simp] theorem raise_sym (c : Cause) (s : State) : (raise c s).sym = s.sym := by
  simp only [raise]; split <;> rfl

@[simp] theorem raise_out (c : Cause) (s : State) : (raise c s).out = s.out := by
  simp only [raise]; split <;> rfl

@[simp] theorem raise_seq (c : Cause) (s : State) : (raise c s).seq = s.seq := by
  simp only [raise]; split <;> rfl

@[simp] theorem raise_resets (c : Cause) (s : State) : (raise c s).resets = s.resets := by
  simp only [raise]; split <;> rfl

@[simp] theorem raise_moves (c : Cause) (s : State) : (raise c s).moves = s.moves := by
  simp only [raise]; split <;> rfl

/-- Without a fault, the operation's effect happens (R126). -/
theorem perform_unfaulted (effect : State → State) (s : State) (h : s.fault.valid = false) :
    performUnlessFaulted effect s = .next (effect s) := by
  simp [performUnlessFaulted, State.faulted, h]

/-- With a fault recorded, the operation is not performed (R128). -/
theorem perform_faulted (effect : State → State) (s : State) (h : s.fault.valid = true) :
    performUnlessFaulted effect s = .next s := by
  simp [performUnlessFaulted, State.faulted, h]

/-- Every case of `performUnlessFaulted`. -/
theorem perform_cases {effect : State → State} {s t : State} (h : performUnlessFaulted effect s = .next t) :
    (s.fault.valid = true ∧ t = s) ∨ (s.fault.valid = false ∧ t = effect s) := by
  cases hv : s.fault.valid with
  | true =>
    rw [perform_faulted effect s hv] at h
    exact .inl ⟨rfl, by cases h; rfl⟩
  | false =>
    rw [perform_unfaulted effect s hv] at h
    exact .inr ⟨rfl, by cases h; rfl⟩

@[simp] theorem applyReset_params (s : State) : (applyReset s).params = s.params := rfl
@[simp] theorem applyReset_cb (s : State) : (applyReset s).cb = Config.resetCode (s.resets + 1) := rfl
@[simp] theorem applyReset_sym (s : State) : (applyReset s).sym = Config.resetSymbols (s.resets + 1) := rfl
@[simp] theorem applyReset_out (s : State) : (applyReset s).out = Config.resetOut (s.resets + 1) := rfl
@[simp] theorem applyReset_fault (s : State) : (applyReset s).fault = ⟨false, 0⟩ := rfl
@[simp] theorem applyReset_seq (s : State) : (applyReset s).seq = 0 := rfl
@[simp] theorem applyReset_resets (s : State) : (applyReset s).resets = s.resets + 1 := rfl
@[simp] theorem applyReset_moves (s : State) : (applyReset s).moves = s.moves := rfl

/-- A step with no move pending waits. -/
theorem step_idle (s : State) (h : s.moves = []) : step s = .next s := by
  simp [step, takeMove, h]

/-- A step with a move pending performs it on the state without it. -/
theorem step_move (s : State) (m : HostMove) (rest : List HostMove) (h : s.moves = m :: rest) :
    step s = performMove m (s.setMoves rest) := by
  simp [step, takeMove, h]

end Sys2Proof.Machine
end

