-- ==== Sys2Proof/Laws/Stages.lean ====
section
/-! SUPPORT. One lemma per stage and per buffer function: the cells it writes, and the fields it leaves. -/

namespace Sys2Proof.Machine

@[simp] theorem packStage_eq (s : State) :
    packStage s = s.setCode (packBuffer config.rgbLayout s.params) := rfl

@[simp] theorem maskStage_eq (k : Byte) (s : State) : maskStage k s = s.setCode (maskBuffer k s.cb) := rfl

@[simp] theorem sympkStage_eq (s : State) :
    sympkStage s = s.setSymbols (packSymbols config.symBitOrder s.cb) := rfl

@[simp] theorem rendStage_eq (s : State) : rendStage s = s.setOut (renderSymbols config.charCode s.sym) := rfl

theorem legalRange_of_lt {r : Nat} (h : r < 9) : legalRange r = some ⟨r, h⟩ := by simp [legalRange, h]

theorem legalRange_of_le {r : Nat} (h : 9 ≤ r) : legalRange r = none := by simp [legalRange, Nat.not_lt.mpr h]

/-- ROTR with a legal range writes `CB` (R75). -/
theorem rotrStage_legal (r n : Nat) (s : State) (h : r < 9) :
    rotrStage r n s = s.setCode (rotateBuffer ⟨r, h⟩ n s.cb) := by
  simp [rotrStage, legalRange_of_lt h]

/-- ROTR with a range above 8 raises RangeFault (R77). -/
theorem rotrStage_illegal (r n : Nat) (s : State) (h : 9 ≤ r) : rotrStage r n s = raise .rangeFault s := by
  simp [rotrStage, legalRange_of_le h]

/-- A masked buffer, cell by cell (R86). -/
theorem maskBuffer_getElem (k : Byte) (cb : CodeBuffer) (i : Nat) (h : i < 9) :
    (maskBuffer k cb)[i] = if i < 8 then cb[i] ^^^ maskByte k else cb[i] := by
  simp only [maskBuffer, maskedBytes, Vector.getElem_ofFn, Fin.getElem_fin]
  rfl

/-- The byte step, cell by cell (R72). -/
theorem byteRot_getElem (r : Fin 9) (cb : CodeBuffer) (i : Nat) (h : i < 9) :
    (byteRot r cb)[i] = if i ≤ r.val then (if i = 0 then cb[r.val] else cb[i - 1]) else cb[i] := by
  simp only [byteRot, ringPredecessor, Vector.getElem_ofFn, Fin.le_def, Fin.getElem_fin]

/-- The sub-byte step, cell by cell (R73). -/
theorem subRot_getElem (r : Fin 9) (k : Nat) (cb : CodeBuffer) (i : Nat) (h : i < 9) :
    (subRot r k cb)[i] =
      if i ≤ r.val then (cb[i] >>> k) ||| (lowBits k (if i = 0 then cb[r.val] else cb[i - 1]) <<< (8 - k))
      else cb[i] := by
  simp only [subRot, ringPredecessor, Vector.getElem_ofFn, Fin.le_def, Fin.getElem_fin]

/-- The packed symbols, cell by cell (R92). -/
theorem packSymbols_getElem (order : SymBitOrder) (cb : CodeBuffer) (i : Nat) (h : i < 15) :
    (packSymbols order cb)[i] = symbolAt order cb i := by
  simp [packSymbols]

/-- The rendered characters, cell by cell (R105). -/
theorem renderSymbols_getElem (code : Char → Byte) (sym : SymbolFile) (i : Nat) (h : i < 15) :
    (renderSymbols code sym)[i] = code (letter sym[i]) := by
  simp [renderSymbols]

/-- The bits of a symbol are the bits it is made of (R92). -/
theorem symbolOfBits_getLsbD (bit : Nat → Bool) (t : Nat) (h : t < 5) :
    (symbolOfBits bit).getLsbD t = bit t := by
  unfold symbolOfBits
  generalize h0 : bit 0 = b0
  generalize h1 : bit 1 = b1
  generalize h2 : bit 2 = b2
  generalize h3 : bit 3 = b3
  generalize h4 : bit 4 = b4
  have key : ∀ b0 b1 b2 b3 b4 : Bool, ∀ t : Fin 5,
      (BitVec.ofNat 5 (b0.toNat + b1.toNat * 2 + b2.toNat * 4 + b3.toNat * 8 + b4.toNat * 16)).getLsbD t =
        [b0, b1, b2, b3, b4][t] := by decide
  rw [key b0 b1 b2 b3 b4 ⟨t, h⟩]
  match t, h with
  | 0, _ => simp [h0]
  | 1, _ => simp [h1]
  | 2, _ => simp [h2]
  | 3, _ => simp [h3]
  | 4, _ => simp [h4]

/-- ENCODE's six sub-operations, in order (R113, R116): without a fault, each on the state the one before left, and
`SEQ` back at 0. -/
theorem encodeStage_unfaulted (s : State) (h : s.fault.valid = false) :
    encodeStage s =
      (rendStage (sympkStage (rotrStage rot2Range rot2Shift
        (rotrStage rot1Range (config.shift1 s.params.key)
          (maskStage s.params.key (packStage s)))))).setSeq 0 := by
  simp [encodeStage, encodeStep, encodeSubOperation, Function.iterate_succ, rot1Range, rot2Range, rotrStage_legal,
    State.faulted, h]
  rfl

end Sys2Proof.Machine
end

