-- ==== Sys2Proof/Laws/Exec.lean ====
section
/-! SUPPORT. What `exec` answers for every operation, and what a faulted block does. -/

namespace Sys2Proof.Machine

/-- A faulted block performs no operation (R128). -/
theorem exec_faulted (i : Instr) (s : State) (h : s.fault.valid = true) : exec i s = .next s := by
  cases i <;> exact perform_faulted _ s h

theorem exec_pack_unfaulted (s : State) (h : s.fault.valid = false) : exec .pack s = .next (packStage s) :=
  perform_unfaulted _ s h

theorem exec_mask_unfaulted (k : Byte) (s : State) (h : s.fault.valid = false) :
    exec (.mask k) s = .next (maskStage k s) :=
  perform_unfaulted _ s h

theorem exec_rotr_unfaulted (r n : Nat) (s : State) (h : s.fault.valid = false) :
    exec (.rotr r n) s = .next (rotrStage r n s) :=
  perform_unfaulted _ s h

theorem exec_sympk_unfaulted (s : State) (h : s.fault.valid = false) : exec .sympk s = .next (sympkStage s) :=
  perform_unfaulted _ s h

theorem exec_rend_unfaulted (s : State) (h : s.fault.valid = false) : exec .rend s = .next (rendStage s) :=
  perform_unfaulted _ s h

theorem exec_encode_unfaulted (s : State) (h : s.fault.valid = false) : exec .encode s = .next (encodeStage s) :=
  perform_unfaulted _ s h

/-- A word of the opcode map is issued as its operation. -/
theorem issue_ok (w : CmdWord) (i : Instr) (s : State) (h : decode w = .ok i) : issue w s = exec i s := by
  simp [issue, h]

/-- A word outside the opcode map raises IllegalCommand (R124). -/
theorem issue_error (w : CmdWord) (e : IllegalWord) (s : State) (h : decode w = .error e) :
    issue w s = .next (raise .illegalCommand s) := by
  simp [issue, h]

/-- ROTR leaves everything but `CB` and `FAULT`, whatever its operands. -/
theorem rotrStage_frame (r n : Nat) (s : State) :
    (rotrStage r n s).params = s.params ∧ (rotrStage r n s).sym = s.sym ∧ (rotrStage r n s).out = s.out ∧
    (rotrStage r n s).seq = s.seq ∧ (rotrStage r n s).resets = s.resets ∧ (rotrStage r n s).moves = s.moves := by
  by_cases h : r < 9
  · simp [rotrStage_legal r n s h]
  · simp [rotrStage_illegal r n s (by omega)]

end Sys2Proof.Machine
end

