-- ==== Sys2Proof/Laws/PerInstr.lean ====
section
/-! SUPPORT. Statements for every operation as a term, one lemma per constructor of `Instr`. -/

namespace Sys2Proof.Laws

/-- The encoder's word of a well-formed operation selects the opcode table's row of that operation (R48). -/
def RowMatch.Statement (i : Instr) : Prop :=
  i.wellFormed = true → ∃ row ∈ opcodeTable, row.mnemonic = i.mnemonic ∧ row.selects (Sys2Proof.encode i) = true

theorem RowMatch.pack : RowMatch.Statement .pack := fun _ => ⟨⟨.pack, 0x1000, 0xFFFF⟩, by decide, rfl, by decide⟩

theorem RowMatch.mask (k : Byte) : RowMatch.Statement (.mask k) := fun _ =>
  ⟨⟨.mask, 0x2000, 0xFF00⟩, by decide, rfl, by revert k; decide⟩

/-- The fixed bits of a ROTR word do not depend on its operands. -/
theorem rotr_word_selects (r : BitVec 4) (n : Byte) : (commandWord 0x3 r n &&& 0xF000#16) = 0x3000#16 := by
  apply BitVec.eq_of_getLsbD_eq
  intro j hj
  simp only [commandWord, BitVec.getLsbD_and, BitVec.getLsbD_append]
  rcases Nat.lt_or_ge j 12 with h | h
  · have : ∀ j : Fin 12, (0xF000#16).getLsbD j = false ∧ (0x3000#16).getLsbD j = false := by decide
    obtain ⟨h1, h2⟩ := this ⟨j, h⟩
    simp only at h1 h2
    rw [h1, h2, Bool.and_false]
  · have : ∀ j : Fin 4, (0x3#4).getLsbD j = (0x3000#16).getLsbD (j + 12) ∧ (0xF000#16).getLsbD (j + 12) = true := by
      decide
    obtain ⟨h1, h2⟩ := this ⟨j - 12, by omega⟩
    simp only [Nat.sub_add_cancel h] at h1 h2
    rw [← h1, h2, if_neg (by omega), if_neg (by omega), Bool.and_true, show j - 8 - 4 = j - 12 by omega]
    rfl

theorem RowMatch.rotr (r n : Nat) : RowMatch.Statement (.rotr r n) := fun _ =>
  ⟨⟨.rotr, 0x3000, 0xF000⟩, by decide, rfl, by
    simpa [TableRow.selects, Sys2Proof.encode] using rotr_word_selects (BitVec.ofNat 4 r) (BitVec.ofNat 8 n)⟩

theorem RowMatch.sympk : RowMatch.Statement .sympk := fun _ => ⟨⟨.sympk, 0x4000, 0xFFFF⟩, by decide, rfl, by decide⟩

theorem RowMatch.rend : RowMatch.Statement .rend := fun _ => ⟨⟨.rend, 0x5000, 0xFFFF⟩, by decide, rfl, by decide⟩

theorem RowMatch.encode : RowMatch.Statement .encode := fun _ =>
  ⟨⟨.encode, 0x6000, 0xFFFF⟩, by decide, rfl, by decide⟩

end Sys2Proof.Laws
end

