-- ==== Sys2Proof/Tests/Slice0.lean ====
section
/-! SUPPORT. The model's own tests. Expected values are those of `spec/95_test_vectors.md` and of the rules' worked
examples, or words written out from the patterns of `opcode_table.json`; none is the model's own answer. -/

namespace Sys2Proof.Tests

open Sys2Proof.Machine

/-- The parameters of V1 with a key. -/
def v1Params (key : Byte) : Params := { bg := 0xF850A1, fg := 0xF850F8, icon := 1, pat := 11, tid := 38381, key := key }

/-- Buffer B of section 3. -/
def bufferB : CodeBuffer := #v[0x5F, 0x51, 0x5F, 0x7D, 0x01, 0x0B, 0x94, 0xCA, 0x00]

/-- Buffer S of section 3. -/
def bufferS : CodeBuffer := #v[0x01, 0x02, 0x04, 0x08, 0x10, 0x20, 0x40, 0x80, 0xA5]

/-- The symbols of V1. -/
def v1Symbols : SymbolFile := #v[6, 5, 20, 4, 0, 29, 11, 17, 27, 7, 26, 17, 0, 14, 25]

/-- An unfaulted state with the given buffer, key and moves. -/
def stateOf (cb : CodeBuffer) (key : Byte) (moves : List HostMove) : State :=
  { params := v1Params key, cb := cb, sym := v1Symbols, out := Vector.replicate 15 0, fault := ⟨false, 0⟩, seq := 0,
    resets := 0, moves := moves }

/-- The same with RangeFault recorded. -/
def faultedState (moves : List HostMove) : State := (stateOf bufferB 0 moves).setFault ⟨true, 2⟩

/-- The next state, where there is one. -/
def nextOf (o : Host.Outcome State Fault Refusal) : Option State :=
  match o with
  | .next t => some t
  | .fault _ => none
  | .refused _ => none

/-- One step that issues a word on a buffer. -/
def issued (cb : CodeBuffer) (w : CmdWord) : Option State := nextOf (step (stateOf cb 0 [.command w]))

/-! ### Decoding: one word of each constructor from the pattern of its row -/

theorem test_decode_pack : decode 0b0001000000000000 = .ok .pack := by decide
theorem test_decode_mask : decode 0b0010000011000101 = .ok (.mask 0xC5) := by decide
theorem test_decode_rotr : decode 0b0011100000010101 = .ok (.rotr 8 21) := by decide
theorem test_decode_rotr_extremes : decode 0b0011111111111111 = .ok (.rotr 15 255) := by decide
theorem test_decode_sympk : decode 0b0100000000000000 = .ok .sympk := by decide
theorem test_decode_rend : decode 0b0101000000000000 = .ok .rend := by decide
theorem test_decode_encode : decode 0b0110000000000000 = .ok .encode := by decide
theorem test_decode_rejects_zero : decode 0x0000 = .error .reservedOp := by decide
theorem test_decode_rejects_seven : decode 0x7000 = .error .reservedOp := by decide
theorem test_decode_rejects_mask_rng : decode 0x2100 = .error .nonzeroRng := by decide
theorem test_decode_rejects_pack_imm : decode 0x1001 = .error .nonzeroImm := by decide
theorem test_decode_rejects_encode_imm : decode 0x6001 = .error .nonzeroImm := by decide
theorem test_table_word : decodeTableWord 16 0x205A = some (.mask 0x5A) := by decide
theorem test_table_rows_disjoint :
    opcodeTable.Pairwise fun a b => a.pattern &&& (a.mask &&& b.mask) ≠ b.pattern &&& (a.mask &&& b.mask) := by decide

/-! ### WellFormed: an ill-formed term for each check -/

theorem test_illFormed_range : (Instr.rotr 16 0).wellFormed = false := by decide
theorem test_illFormed_shift : (Instr.rotr 0 256).wellFormed = false := by decide
theorem test_wellFormed_bounds : (Instr.rotr 15 255).wellFormed = true := by decide

/-! ### The assembler (R51, R52) -/

theorem test_assemble_program :
    assemble [['P', 'A', 'C', 'K'], [';', ' ', 'x'], ['R', 'O', 'T', '2']] = .ok [0x1000, 0x3815] := by decide
theorem test_assemble_missing_operand : assembleLine ['R', 'O', 'T', 'R', ' ', '8'] = .error .operandCount := by decide

/-! ### One step of each operation, against section 2 to 6 of `95_test_vectors.md` -/

theorem test_pack : (issued bufferS 0x1000).map State.cb = some bufferB := by decide
theorem test_pack_bits :
    packBuffer .rrggbb { bg := 0xFF0000, fg := 0x0000FF, icon := 15, pat := 15, tid := 0x1234, key := 0xAB } =
      #v[0x1F, 0x00, 0x00, 0x7C, 0x0F, 0x0F, 0x02, 0x47, 0xAB] := by decide
theorem test_mask : (issued bufferB 0x205A).map State.cb =
    some #v[0x0A, 0x04, 0x0A, 0x28, 0x54, 0x5E, 0xC1, 0x9F, 0x00] := by decide
theorem test_mask_leaves_byte_8 : (issued bufferS 0x20F3).map (fun t => (t.cb[0], t.cb[8])) = some (0xFE, 0xA5) := by
  decide
theorem test_rotr_two_phases : (issued bufferS 0x3815).map State.cb =
    some #v[0x04, 0x05, 0x28, 0x08, 0x10, 0x20, 0x40, 0x81, 0x02] := by decide
theorem test_rotr_short_ring : (issued bufferS 0x3109).map State.cb =
    some #v[0x81, 0x00, 0x04, 0x08, 0x10, 0x20, 0x40, 0x80, 0xA5] := by decide
theorem test_rotr_range_fault : (issued bufferB 0x3900).map (fun t => (t.cb, t.fault)) =
    some (bufferB, ⟨true, 2⟩) := by decide
theorem test_sympk : (issued bufferS 0x4000).map State.sym =
    some #v[1, 16, 0, 8, 0, 4, 0, 2, 0, 1, 16, 0, 24, 18, 6] := by decide
theorem test_sympk_msb_first :
    (renderSymbols charCode (packSymbols .msbFirst #v[0xA6, 0x50, 0x02, 0xFA, 0x8A, 0xFB, 0xE8, 0x08, 0x5C])).toList =
      ['c', 'j', 'L', 'B', 'H', 'q', 'c', 'N', 's', 'T', 'c', 'B', 'V', 'g', 'H'].map charCode := by decide
theorem test_rend : (issued bufferB 0x5000).map (fun t => t.out.toList) =
    some [0x4A, 0x48, 0x63, 0x47, 0x42, 0x70, 0x50, 0x57, 0x6D, 0x4B, 0x6B, 0x57, 0x42, 0x53, 0x6A] := by decide
theorem test_encode_buffer : (nextOf (step (stateOf bufferS 0x5A [.command 0x6000]))).map (fun t => (t.cb, t.seq)) =
    some (#v[0xBD, 0x82, 0xD3, 0x3E, 0x14, 0x08, 0x14, 0x50, 0xA8], 0) := by decide
theorem test_encode_string : (nextOf (step (stateOf bufferS 0xA7 [.command 0x6000]))).map (fun t => t.out.toList) =
    some (['b', 'L', 'j', 'p', 'b', 'K', 'n', 'P', 's', 'R', 'g', 'c', 'K', 'p', 'S'].map charCode) := by decide
theorem test_running_index : runningIndexForm bufferS = [1, 16, 0, 8, 0, 4, 0, 2, 0, 1, 16, 0, 24, 18, 6] := by decide

/-! ### Faults, reset and the host's moves -/

theorem test_illegal_word : (issued bufferB 0x0000).map State.fault = some ⟨true, 1⟩ := by decide
theorem test_first_cause_kept : (nextOf (step (faultedState [.command 0x0000]))).map State.fault = some ⟨true, 2⟩ := by
  decide
theorem test_reset_clears_fault : (nextOf (step (faultedState [.reset]))).map (fun t => (t.fault, t.params)) =
    some (⟨false, 0⟩, v1Params 0) := by decide
theorem test_first_after_reset :
    (nextOf (step (State.reset.withFetchWord 16 0x6000))).map (fun t => (t.fault, t.seq, t.moves)) =
      some (⟨false, 0⟩, 0, []) := by decide

/-! ### Witnesses: for each statement with hypotheses, a concrete state and operands that meet all of them -/

theorem witness_DecodeOfEncodeIsTheInstruction : (Instr.rotr 15 255).wellFormed = true := by decide
theorem witness_EncodeOfDecodeIsTheWord : decode 0x38FF = .ok (.rotr 8 255) := by decide
theorem witness_DecodeFollowsTheOpcodeMap_noRow : ∀ row ∈ opcodeTable, row.selects 0x2100 = false := by decide
theorem witness_DecodeFollowsTheOpcodeMap_rows :
    [0x1000, 0x20FF, 0x3FFF, 0x4000, 0x5000, 0x6000].map (fun w => (opcodeTable.filter (·.selects w)).length) =
      [1, 1, 1, 1, 1, 1] := by decide
theorem witness_StepRunsTheIssuedCommand :
    (stateOf bufferB 0 [.command 0x3815]).moves = .command 0x3815 :: [] ∧ decode 0x3815 = .ok (.rotr 8 21) := by decide
theorem witness_IllegalWordRaisesIllegalCommand :
    (stateOf bufferB 0 [.command 0x1001]).fault.valid = false ∧
    (stateOf bufferB 0 [.command 0x1001]).moves = .command 0x1001 :: [] ∧
    ∀ row ∈ opcodeTable, (0x1001 : CmdWord) &&& row.mask ≠ row.pattern := by decide
theorem witness_FaultIsStickyUntilReset_command :
    (faultedState [.command 0x6000]).fault.valid = true ∧
    (faultedState [.command 0x6000]).moves = .command 0x6000 :: [] := by decide
theorem witness_FaultIsStickyUntilReset_reset : (faultedState [.reset]).fault.valid = true ∧
    (nextOf (step (faultedState [.reset]))).any (fun t => t.fault != (faultedState [.reset]).fault) = true := by decide
theorem witness_ResetClearsFaultAndSeq : (faultedState [.reset]).moves = .reset :: [] := by decide
theorem witness_DriveSetsThePortsOnly :
    (stateOf bufferB 0 [.drive (v1Params 1)]).moves = .drive (v1Params 1) :: [] := by decide
theorem witness_IdleBlockWaits : (stateOf bufferB 0 []).moves = [] := by decide

/-- The invariant, decided. -/
theorem test_state_meets_invariant (cb : CodeBuffer) (key : Byte) (moves : List HostMove) :
    Safety.Inv (stateOf cb key moves) := ⟨rfl, fun _ => rfl, fun h => by cases h⟩

theorem witness_StepKeepsTheInvariant : Safety.Inv (stateOf bufferB 0 [.command 0x3900]) ∧
    ∃ t, step (stateOf bufferB 0 [.command 0x3900]) = .next t := ⟨test_state_meets_invariant _ _ _, _, rfl⟩
theorem witness_OperationsNeverWriteThePorts : ∃ t, exec .encode (stateOf bufferB 0x5A []) = .next t := ⟨_, rfl⟩
theorem witness_FaultsArePreciseAndOnlyFromRotr : (stateOf bufferB 0 []).fault.valid = false ∧
    ∃ t, exec (.rotr 9 0) (stateOf bufferB 0 []) = .next t ∧ t.fault.valid = true := ⟨rfl, _, rfl, rfl⟩
theorem witness_PackWritesTheFieldMap : (stateOf bufferB 0 []).fault.valid = false := by decide
theorem witness_PackedHighBytesHaveBitSevenClear : (stateOf bufferB 0xFF []).fault.valid = false := by decide
theorem witness_ChecksumsHoldTheTrainerIdentifier : (stateOf bufferS 0x01 []).fault.valid = false := by decide
theorem witness_MaskXorsTheFirstEightBytes_boundary :
    (stateOf bufferB 0 []).fault.valid = false ∧ (7 : Fin 9).val < 8 ∧ ¬ (8 : Fin 9).val < 8 := by decide
theorem witness_ByteStepRotatesTheRingBytes_inside : 1 ≤ (8 : Fin 9).val ∧ (8 : Fin 9) ≤ 8 := by decide
theorem witness_ByteStepRotatesTheRingBytes_outside : (7 : Fin 9) < 8 := by decide
theorem witness_ByteStepRotatesTheRingBytes_places : (7 : Fin 9) ≤ 7 ∧ (1 : Fin 9).val = ((7 : Fin 9).val + 10) % 8 := by
  decide
theorem witness_SubByteStepCarriesLowBits : 1 ≤ 7 ∧ 7 ≤ 7 ∧ 1 ≤ (3 : Fin 9).val ∧ (3 : Fin 9) ≤ 3 ∧ (3 : Fin 9) < 4 := by
  decide
theorem witness_RotrDoesTheTwoPhases : (stateOf bufferS 0 []).fault.valid = false := by decide
theorem witness_RotrMovesEveryRingBit_wrap : (stateOf bufferS 0 []).fault.valid = false ∧ (8 : Fin 9) ≤ 8 ∧
    8 * (0 : Fin 9).val + (7 - (7 : Fin 8).val) = (8 * (8 : Fin 9).val + (7 - (0 : Fin 8).val) + 1) % (8 * (8 + 1)) := by
  decide
theorem witness_RotrMovesEveryRingBit_outside : (7 : Fin 9) < 8 := by decide
theorem witness_RotrOutOfBoundsRaisesRangeFault : (stateOf bufferB 0 []).fault.valid = false ∧ 8 < 9 := by decide
theorem witness_SympkCutsTheStreamIntoSymbols : (stateOf bufferB 0 []).fault.valid = false := by decide
theorem witness_SymbolsByTheirBytes : (stateOf bufferS 0 []).fault.valid = false := by decide
theorem witness_LastSymbolReusesThreeBits : (stateOf bufferS 7 []).fault.valid = false := by decide
theorem witness_SymbolsDetermineTheBuffer :
    packSymbols .lsbFirst bufferB = packSymbols .lsbFirst #v[0x5F, 0x51, 0x5F, 0x7D, 0x01, 0x0B, 0x94, 0xCA, 0x00] ∧
    packSymbols .msbFirst bufferS ≠ packSymbols .msbFirst bufferB := by decide
theorem witness_SymbolsDetermineTheBuffer_states :
    (stateOf bufferB 0 []).fault.valid = false ∧ (stateOf bufferB 1 []).fault.valid = false ∧
    packSymbols config.symBitOrder (stateOf bufferB 0 []).cb = packSymbols config.symBitOrder (stateOf bufferB 1 []).cb := by
  decide
theorem witness_RendLooksUpTheAlphabet : (stateOf bufferB 2 []).fault.valid = false := by decide
theorem witness_AlphabetIsTheListOfTheSpec : letter 19 = 'b' ∧ letter 18 = 'Z' := by decide
theorem witness_RendIsOneToOne : (stateOf bufferB 0 []).fault.valid = false ∧ (stateOf bufferS 0 []).fault.valid = false ∧
    (nextOf (exec .rend (stateOf bufferB 0 []))).map State.out = (nextOf (exec .rend (stateOf bufferS 0 []))).map State.out := by
  decide
theorem witness_EncodeIsTheSixOperationsInOrder : (stateOf bufferB 0xA7 []).fault.valid = false := by decide
theorem witness_EncodeStepsUnderSeq :
    (stateOf bufferB 0x5A []).fault.valid = false ∧ (stateOf bufferB 0x5A []).seq = 0 ∧
    ((stateOf bufferB 0x5A []).setSeq 5).fault.valid = false ∧ ((stateOf bufferB 0x5A []).setSeq 5).seq = 5 := by decide
theorem witness_EncodeDependsOnTheParametersOnly :
    (stateOf bufferB 0x5A []).fault.valid = false ∧ (stateOf bufferS 0x5A []).fault.valid = false ∧
    (stateOf bufferB 0x5A []).params = (stateOf bufferS 0x5A []).params := by decide
theorem witness_EncodePlacesTheKeyBits : (stateOf bufferB 0x5A []).fault.valid = false := by decide
theorem witness_DifferentKeysGiveDifferentCodes : (stateOf bufferB 0 []).fault.valid = false ∧ (0x00 : Byte) ≠ 0x01 := by
  decide
theorem witness_KnownVectorEncodes : (stateOf bufferS 0 []).fault.valid = false ∧
    (stateOf bufferS 0 []).params =
      { bg := 0xF850A1, fg := 0xF850F8, icon := 1, pat := 11, tid := 38381, key := 0 } := by decide

end Sys2Proof.Tests
end

section
/-! PROOFS. Command words (`30_encoding.md`): the decoder against the encoder and the opcode table, and the two
obligations of that file on illegal words (R49) and on the pseudo-operations (R52). -/

namespace Sys2Proof

/-! ### What each part of the decoder accepts -/

/-- An operation without operands decodes only where both operand fields are zero (R49). -/
theorem withoutOperands_eq_ok_iff {w : CmdWord} {i j : Instr} :
    withoutOperands w i = .ok j ↔ rngField w = 0 ∧ immField w = 0 ∧ i = j := by
  unfold withoutOperands
  split_ifs with hrng himm
  · exact ⟨nofun, fun ⟨h, _⟩ => absurd h hrng⟩
  · exact ⟨nofun, fun ⟨_, h, _⟩ => absurd h himm⟩
  · simp [not_not.mp hrng, not_not.mp himm]

/-- MASK decodes only where `rng` is zero; `imm` is its key byte (R47, R49). -/
theorem decodeMask_eq_ok_iff {w : CmdWord} {j : Instr} :
    decodeMask w = .ok j ↔ rngField w = 0 ∧ .mask (immField w) = j := by
  unfold decodeMask
  split_ifs with hrng
  · exact ⟨nofun, fun ⟨h, _⟩ => absurd h hrng⟩
  · simp [not_not.mp hrng]

/-- A word whose three fields are known is put together from them (R46). -/
theorem commandWord_of_fields {w : CmdWord} {op rng : BitVec 4} {imm : Byte} (hop : (opField w).toNat = op.toNat)
    (hrng : rngField w = rng) (himm : immField w = imm) : commandWord op rng imm = w := by
  rw [← BitVec.eq_of_toNat_eq hop, ← hrng, ← himm, commandWord_fields]

/-- The fields of a word always fit the operands of ROTR (R47). -/
theorem wellFormed_rotr_toNat (r : BitVec 4) (n : Byte) : (Instr.rotr r.toNat n.toNat).wellFormed = true := by
  simp only [Instr.wellFormed, Bool.and_eq_true, decide_eq_true_eq]
  omega

/-- A word that decodes is the word of a well-formed operation, the one it decodes to (R50): in each row of the opcode
map the accepted fields are those the encoder writes. -/
theorem wellFormed_and_encode_of_decode {w : CmdWord} {i : Instr} (h : decode w = .ok i) :
    i.wellFormed = true ∧ encode i = w := by
  unfold decode at h
  split at h
  case h_1 hop | h_4 hop | h_5 hop | h_6 hop =>
    obtain ⟨hrng, himm, rfl⟩ := withoutOperands_eq_ok_iff.mp h
    exact ⟨rfl, commandWord_of_fields hop hrng himm⟩
  case h_2 hop =>
    obtain ⟨hrng, rfl⟩ := decodeMask_eq_ok_iff.mp h
    exact ⟨rfl, commandWord_of_fields hop hrng rfl⟩
  case h_3 hop =>
    cases h
    refine ⟨wellFormed_rotr_toNat _ _, ?_⟩
    simpa [encode] using commandWord_of_fields (op := 0x3) hop rfl rfl
  case h_7 => cases h

/-- Every well-formed operation has a row of the opcode table that selects its word (R48). -/
theorem Laws.RowMatch.all (i : Instr) : RowMatch.Statement i := by
  cases i with
  | pack => exact RowMatch.pack
  | mask k => exact RowMatch.mask k
  | rotr r n => exact RowMatch.rotr r n
  | sympk => exact RowMatch.sympk
  | rend => exact RowMatch.rend
  | encode => exact RowMatch.encode

/-- A word that matches no row of the opcode table does not decode (R49). -/
theorem decode_error_of_no_row {w : CmdWord} (h : ∀ row ∈ opcodeTable, w &&& row.mask ≠ row.pattern) :
    ∃ reason, decode w = .error reason := by
  cases hd : decode w with
  | error reason => exact ⟨reason, rfl⟩
  | ok i =>
    obtain ⟨hwf, hword⟩ := wellFormed_and_encode_of_decode hd
    obtain ⟨row, hrow, -, hsel⟩ := Laws.RowMatch.all i hwf
    rw [hword] at hsel
    exact absurd (beq_iff_eq.mp hsel) (h row hrow)

/-- The low byte of a command word is `imm`, over the word of the same operation with `imm` zero (R46). -/
theorem commandWord_eq_or_imm (op rng : BitVec 4) (imm : Byte) :
    commandWord op rng imm = commandWord op rng 0 ||| imm.setWidth 16 := by
  apply BitVec.eq_of_getLsbD_eq
  intro j hj
  simp only [commandWord, BitVec.getLsbD_or, BitVec.getLsbD_append, BitVec.getLsbD_setWidth, hj]
  by_cases hlow : j < 8
  · simp [hlow]
  · simp [hlow, BitVec.getLsbD_of_ge imm j (by omega)]

/-- `ROT1 k` is the word of `ROTR 7` with the key's low nibble as its shift operand (R52). -/
theorem encode_rot1 (k : Byte) : encode (Pseudo.rot1 k).expand = commandWord 0x3 7 (k &&& 0x0F) := by
  simp [Pseudo.expand, encode]

/-! ### The obligations -/

namespace Machine

/-- Settles O8: a word that matches no row does not decode, and issuing it to an unfaulted block records
IllegalCommand and nothing else (R49, R124). -/
theorem illegalWordRaisesIllegalCommand : Obligations.IllegalWordRaisesIllegalCommand := by
  intro s w rest hfault hmoves hrows
  obtain ⟨reason, hdecode⟩ := decode_error_of_no_row hrows
  calc step s = issue w (s.setMoves rest) := step_move s _ _ hmoves
    _ = .next (raise .illegalCommand (s.setMoves rest)) := issue_error _ _ _ hdecode
    _ = .next ((s.setMoves rest).setFault ⟨true, 1⟩) :=
      congrArg _ (raise_unfaulted .illegalCommand (s.setMoves rest) hfault)

end Machine

/-- Settles O5: two words by evaluation, and ROT1's key nibble by the place of `imm` in a command word (R52). -/
theorem pseudoOperationsExpand : Obligations.PseudoOperationsExpand := by
  refine ⟨by decide, fun k => ?_, by decide⟩
  rw [encode_rot1, commandWord_eq_or_imm]
  rfl

end Sys2Proof
end


section
/-! PROOFS. The Field Packer (`40_field_packer.md`): the packed colour as a number (R60), and PACK's field map with its
frame (R61). -/

namespace Sys2Proof.Machine

/-- A channel without its low three bits, as a number of 15 bits (R60). -/
theorem toNat_channel_shiftRight_three (v : Byte) : ((v >>> 3).setWidth 15).toNat = v.toNat / 8 := by
  rw [BitVec.toNat_setWidth, BitVec.toNat_ushiftRight, Nat.shiftRight_eq_div_pow]
  omega

/-- Three fields of five bits each, put side by side in 15 bits, do not overlap: the OR of the shifted fields is their
weighted sum. -/
theorem toNat_or_of_fiveBitFields {b g r : BitVec 15} (hb : b.toNat < 32) (hg : g.toNat < 32) (hr : r.toNat < 32) :
    ((b <<< 10) ||| (g <<< 5) ||| r).toNat = b.toNat * 1024 + g.toNat * 32 + r.toNat := by
  have blue_fits : b.toNat <<< 10 % 2 ^ 15 = b.toNat <<< 10 := Nat.mod_eq_of_lt (by omega)
  have green_fits : g.toNat <<< 5 % 2 ^ 15 = g.toNat <<< 5 := Nat.mod_eq_of_lt (by omega)
  calc ((b <<< 10) ||| (g <<< 5) ||| r).toNat
      = b.toNat <<< 10 ||| (g.toNat <<< 5 ||| r.toNat) := by
        simp only [BitVec.toNat_or, BitVec.toNat_shiftLeft, blue_fits, green_fits, Nat.or_assoc]
    _ = b.toNat <<< 10 + (g.toNat <<< 5 + r.toNat) := by
        rw [← Nat.shiftLeft_add_eq_or_of_lt (i := 5) (by omega),
          ← Nat.shiftLeft_add_eq_or_of_lt (i := 10) (by omega)]
    _ = b.toNat * 1024 + g.toNat * 32 + r.toNat := by omega

/-- Settles O20: each channel without its low three bits is a field of five bits, and the three fields stand side by
side (R60). The layout only selects the channels. -/
theorem packedColourIsBlueGreenRed : Obligations.PackedColourIsBlueGreenRed := by
  intro layout c
  have fits (v : Byte) : ((v >>> 3).setWidth 15).toNat < 32 := by
    rw [toNat_channel_shiftRight_three]
    omega
  rw [pack15, toNat_or_of_fiveBitFields (fits _) (fits _) (fits _)]
  simp only [toNat_channel_shiftRight_three]

/-- Settles O21: an unfaulted PACK is its stage, which writes `packBuffer` to `CB` alone; the cells of that buffer are
those of the field map (R61). -/
theorem packWritesTheFieldMap : Obligations.PackWritesTheFieldMap := by
  intro s hfault
  calc exec .pack s = .next (packStage s) := exec_pack_unfaulted s hfault
    _ = .next (s.setCode (packBuffer config.rgbLayout s.params)) := congrArg _ (packStage_eq s)
    _ = _ := rfl

end Sys2Proof.Machine
end


section
/-! PROOFS. The Circular Rotator (`41_rotator.md`): the byte step and its iterate (R72), the sub-byte step as a sum
(R73), and what ROTR does with a legal (R75) and an illegal range (R77). -/

namespace Sys2Proof.Machine

/-! ### The byte step -/

/-- The byte step moves each ring byte to the next place of the ring; place 0 comes after place `r` (R72). -/
theorem byteRot_getElem_next (r : Fin 9) (cb : CodeBuffer) {i j : Fin 9} (hi : i ≤ r)
    (hj : j.val = (i.val + 1) % (r.val + 1)) : (byteRot r cb)[j] = cb[i] := by
  rw [Fin.getElem_fin, byteRot_getElem]
  obtain rfl | hlt := hi.eq_or_lt
  · have hzero : j.val = 0 := hj.trans (Nat.mod_self _)
    simp [hzero]
  · have hsucc : j.val = i.val + 1 := hj.trans (Nat.mod_eq_of_lt (Nat.succ_lt_succ hlt))
    simp [hsucc, Nat.succ_le_of_lt hlt]

/-- `q` byte steps move each ring byte on by `q` places of the ring (R72). -/
theorem byteRot_iterate_getElem (r : Fin 9) (cb : CodeBuffer) (q : Nat) {i j : Fin 9} (hi : i ≤ r)
    (hj : j.val = (i.val + q) % (r.val + 1)) : ((byteRot r)^[q] cb)[j] = cb[i] := by
  induction q generalizing j with
  | zero =>
    obtain rfl : j = i := Fin.ext (hj.trans (Nat.mod_eq_of_lt (Nat.lt_succ_of_le hi)))
    rfl
  | succ q ih =>
    have hlt : (i.val + q) % (r.val + 1) < r.val + 1 := Nat.mod_lt _ (Nat.succ_pos _)
    obtain ⟨m, hm⟩ : ∃ m : Fin 9, m.val = (i.val + q) % (r.val + 1) := ⟨⟨_, hlt.trans_le r.isLt⟩, rfl⟩
    have hmr : m ≤ r := Nat.le_of_lt_succ (hm.trans_lt hlt)
    have hnext : j.val = (m.val + 1) % (r.val + 1) := by rw [hj, hm, Nat.mod_add_mod, Nat.add_assoc]
    rw [Function.iterate_succ_apply', byteRot_getElem_next r _ hmr hnext, ih hm]

/-- Settles O28: the assignment is the byte step cell by cell, and the places after `q` steps are the induction on
`q` (R72). -/
theorem byteStepRotatesTheRingBytes : Obligations.ByteStepRotatesTheRingBytes := by
  intro r cb
  refine ⟨?first, fun i hpos hi => ?inside, fun i hi => ?outside, fun q i j => byteRot_iterate_getElem r cb q⟩
  case first => simp [byteRot_getElem]
  case inside => rw [Fin.getElem_fin, byteRot_getElem, if_pos (Fin.le_def.mp hi), if_neg (by omega)]
  case outside => rw [Fin.getElem_fin, byteRot_getElem, if_neg (Nat.not_le_of_lt hi)]; rfl

/-! ### The sub-byte step -/

/-- `low_k(v)` as a number (R5). -/
theorem toNat_lowBits (k : Nat) (v : Byte) : (lowBits k v).toNat = v.toNat % 2 ^ k := by
  rw [lowBits, BitVec.toNat_ofNat, Nat.mod_eq_of_lt ((Nat.mod_le _ _).trans_lt v.isLt)]

/-- A byte shifted right by `k` and `k` carried bits above it do not overlap: "`|` equals `+` and nothing needs
truncating" (R73). -/
theorem toNat_shiftRight_or_carry {k : Nat} (hk : k ≤ 8) (v carry : Byte) :
    ((v >>> k) ||| (lowBits k carry <<< (8 - k))).toNat =
      v.toNat / 2 ^ k + carry.toNat % 2 ^ k * 2 ^ (8 - k) := by
  have width : 2 ^ k * 2 ^ (8 - k) = 2 ^ 8 := by rw [← pow_add, Nat.add_sub_cancel' hk]
  have low_fits : v.toNat / 2 ^ k < 2 ^ (8 - k) := by
    rw [Nat.div_lt_iff_lt_mul (Nat.two_pow_pos k), mul_comm, width]
    exact v.isLt
  have high_fits : carry.toNat % 2 ^ k * 2 ^ (8 - k) < 2 ^ 8 := by
    rw [← width]
    exact Nat.mul_lt_mul_of_pos_right (Nat.mod_lt _ (Nat.two_pow_pos k)) (Nat.two_pow_pos _)
  rw [BitVec.toNat_or, BitVec.toNat_ushiftRight, BitVec.toNat_shiftLeft, toNat_lowBits, Nat.shiftRight_eq_div_pow,
    Nat.shiftLeft_eq, Nat.mod_eq_of_lt high_fits, ← Nat.shiftLeft_eq, Nat.or_comm,
    ← Nat.shiftLeft_add_eq_or_of_lt low_fits, Nat.add_comm]

/-- Settles O29: each ring byte is the sum of its two parts, the carry being the old byte before it in the ring; a byte
outside the ring is not written (R73). -/
theorem subByteStepCarriesLowBits : Obligations.SubByteStepCarriesLowBits := by
  intro r k cb _ hk
  have hk8 : k ≤ 8 := hk.trans (by decide)
  refine ⟨?first, fun i hpos hi => ?inside, fun i hi => ?outside⟩
  case first =>
    rw [subRot_getElem, if_pos (Nat.zero_le _), if_pos rfl, toNat_shiftRight_or_carry hk8]; rfl
  case inside =>
    rw [Fin.getElem_fin, subRot_getElem, if_pos (Fin.le_def.mp hi), if_neg (by omega),
      toNat_shiftRight_or_carry hk8]; rfl
  case outside => rw [Fin.getElem_fin, subRot_getElem, if_neg (Nat.not_le_of_lt hi)]; rfl

/-! ### ROTR -/

/-- Settles O30: an unfaulted ROTR is its stage, which with a legal range writes the rotated buffer to `CB` alone; that
buffer is the two phases (R71 to R75). -/
theorem rotrDoesTheTwoPhases : Obligations.RotrDoesTheTwoPhases := by
  intro s r n hfault moved
  calc exec (.rotr r.val n) s = .next (rotrStage r.val n s) := exec_rotr_unfaulted r.val n s hfault
    _ = .next (s.setCode (rotateBuffer r n s.cb)) := congrArg _ (rotrStage_legal r.val n s r.isLt)
    _ = _ := rfl

/-- Settles O36: with a range above 8 the stage raises RangeFault, whose code is 2, and an unfaulted block records it
and nothing else (R77, R123). -/
theorem rotrOutOfBoundsRaisesRangeFault : Obligations.RotrOutOfBoundsRaisesRangeFault := by
  intro s r n hfault hr
  calc exec (.rotr r n) s = .next (rotrStage r n s) := exec_rotr_unfaulted r n s hfault
    _ = .next (raise .rangeFault s) := congrArg _ (rotrStage_illegal r n s hr)
    _ = .next (s.setFault ⟨true, 2⟩) := congrArg _ (raise_unfaulted .rangeFault s hfault)

end Sys2Proof.Machine
end


section
/-! PROOFS. The Masker (`42_masker.md`): the mask as a number (R85), and MASK's effect on `CB` with its frame (R86,
R87). -/

namespace Sys2Proof.Machine

/-- The high nibble of a byte, kept in its place, as a number (R85). -/
theorem toNat_and_highNibble (k : Byte) : (k &&& 0xF0).toNat = k.toNat / 16 * 16 := by
  have kept : k >>> 4 <<< 4 = k &&& 0xF0 := BitVec.shiftLeft_ushiftRight
  rw [← kept, BitVec.toNat_shiftLeft, BitVec.toNat_ushiftRight, Nat.shiftRight_eq_div_pow, Nat.shiftLeft_eq]
  omega

/-- The mask is `0x11` times the key's high nibble: the nibble in its place and its copy below it do not overlap
(R85). -/
theorem toNat_maskByte (k : Byte) : (maskByte k).toNat = 17 * (k.toNat / 16) := by
  have nibble_fits : k.toNat / 16 < 2 ^ 4 := by omega
  have copy : k.toNat / 16 * 16 / 2 ^ 4 = k.toNat / 16 := Nat.mul_div_cancel _ (by decide)
  calc (maskByte k).toNat
      = k.toNat / 16 * 16 ||| k.toNat / 16 := by
        rw [maskByte, BitVec.toNat_or, BitVec.toNat_ushiftRight, toNat_and_highNibble, Nat.shiftRight_eq_div_pow,
          copy]
    _ = (k.toNat / 16) <<< 4 + k.toNat / 16 := by
        rw [Nat.shiftLeft_add_eq_or_of_lt nibble_fits, Nat.shiftLeft_eq]
    _ = 17 * (k.toNat / 16) := by omega

/-- Settles O24: the formula is the model's own, and a multiple of 17 is 0 exactly when the nibble is (R85). -/
theorem maskByteReplicatesTheHighNibble : Obligations.MaskByteReplicatesTheHighNibble := by
  intro k
  have zero_iff : maskByte k = 0 ↔ k.toNat < 0x10 := by
    rw [BitVec.toNat_eq, toNat_maskByte, BitVec.ofNat_eq_ofNat, BitVec.toNat_zero]
    omega
  exact ⟨rfl, toNat_maskByte k, zero_iff⟩

/-- Settles O25: an unfaulted MASK is its stage, which writes `maskBuffer` to `CB` alone; that buffer is the old bytes
XOR the mask below index 8 and the old byte at index 8 (R86, R87). -/
theorem maskXorsTheFirstEightBytes : Obligations.MaskXorsTheFirstEightBytes := by
  intro s k hfault
  refine ⟨maskStage k s, exec_mask_unfaulted k s hfault, ?frame, fun i hi => ?masked, ?untouched⟩
  case frame => rfl
  case masked => rw [maskStage_eq, State.setCode_cb, Fin.getElem_fin, maskBuffer_getElem, if_pos hi]; rfl
  case untouched => rw [maskStage_eq, State.setCode_cb, maskBuffer_getElem, if_neg (by decide)]

end Sys2Proof.Machine
end


section
/-! PROOFS. The Renderer (`44_renderer.md`): REND's effect on `OUT` with its frame (R105). -/

namespace Sys2Proof.Machine

/-- A symbol's letter is the entry of the alphabet at the symbol's number (R18, R105). -/
theorem letter_eq_alphabet_getElem (v : Symbol) : letter v = alphabet[v.toNat] := rfl

/-- Settles O42: an unfaulted REND is its stage, which writes `renderSymbols` to `OUT` alone; each cell of that file is
the code of the symbol's letter (R105). -/
theorem rendLooksUpTheAlphabet : Obligations.RendLooksUpTheAlphabet := by
  intro s hfault
  refine ⟨rendStage s, exec_rend_unfaulted s hfault, ?frame, fun i => ?cell⟩
  case frame => rfl
  case cell =>
    simp only [rendStage_eq, State.setOut_out, Fin.getElem_fin, renderSymbols_getElem, letter_eq_alphabet_getElem]

end Sys2Proof.Machine
end


section
/-! PROOFS. The encode pipeline (`45_encode_pipeline.md`): ENCODE as its six operations in order (R113). -/

namespace Sys2Proof.Machine

/-- ROTR with a legal range raises nothing (R75, R123). -/
theorem rotrStage_unfaulted {r : Nat} (n : Nat) {s : State} (hr : r < 9) (hfault : s.fault.valid = false) :
    (rotrStage r n s).fault.valid = false := by
  rwa [rotrStage_legal r n s hr, State.setCode_fault]

/-- Settles O45: no stage of the pipeline raises a fault, its two ranges being legal, so each operation after PACK finds
an unfaulted state too; ENCODE's stage is their composition with `SEQ` back at 0 (R113). -/
theorem encodeIsTheSixOperationsInOrder : Obligations.EncodeIsTheSixOperationsInOrder := by
  intro s hfault
  have hpack : (packStage s).fault.valid = false := hfault
  have hmask : (maskStage s.params.key (packStage s)).fault.valid = false := hpack
  have hrot1 := rotrStage_unfaulted (r := 7) (config.shift1 s.params.key) (by decide) hmask
  have hrot2 := rotrStage_unfaulted (r := 8) 21 (by decide) hrot1
  have hsympk : (sympkStage _).fault.valid = false := hrot2
  exact ⟨_, _, _, _, _, _, exec_pack_unfaulted s hfault, exec_mask_unfaulted _ _ hpack,
    exec_rotr_unfaulted _ _ _ hmask, exec_rotr_unfaulted _ _ _ hrot1, exec_sympk_unfaulted _ hrot2,
    exec_rend_unfaulted _ hsympk,
    (exec_encode_unfaulted s hfault).trans (congrArg _ (encodeStage_unfaulted s hfault))⟩

end Sys2Proof.Machine
end


section
/-! PROOFS. Exceptions (`60_exceptions.md`): a recorded fault makes the block ignore every command, and only reset
clears it (R128). -/

namespace Sys2Proof.Machine

/-- A faulted block ignores every command word, legal or not (R126, R128). -/
theorem issue_faulted (w : CmdWord) (s : State) (h : s.fault.valid = true) : issue w s = .next s := by
  cases hdecode : decode w with
  | ok i => rw [issue_ok w i s hdecode, exec_faulted i s h]
  | error reason => rw [issue_error w reason s hdecode, raise_faulted _ s h]

/-- In a faulted block every move of the host but reset keeps `FAULT` (R128). -/
theorem performMove_faulted_fault {m : HostMove} {s t : State} (hfault : s.fault.valid = true) (hm : m ≠ .reset)
    (h : performMove m s = .next t) : t.fault = s.fault := by
  cases m with
  | drive p => cases h; exact State.setParams_fault s p
  | command w => cases (issue_faulted w s hfault).symm.trans h; rfl
  | reset => exact absurd rfl hm

/-- Settles O9: an issued word is ignored whether or not it decodes, and of the moves a step can perform, as of
waiting, only reset changes a recorded `FAULT` (R128). -/
theorem faultIsStickyUntilReset : Obligations.FaultIsStickyUntilReset := by
  intro s hfault
  refine ⟨fun w rest hmoves => ?ignored, fun t hstep hchanged => ?onlyReset⟩
  case ignored =>
    exact (step_move s _ rest hmoves).trans (issue_faulted w (s.setMoves rest) hfault)
  case onlyReset =>
    cases hmoves : s.moves with
    | nil =>
      cases (step_idle s hmoves).symm.trans hstep
      exact absurd rfl hchanged
    | cons m rest =>
      rw [step_move s m rest hmoves] at hstep
      have hreset : m = .reset := by
        by_contra hm
        exact hchanged (performMove_faulted_fault (s := s.setMoves rest) hfault hm hstep)
      exact ⟨rest, by rw [hreset]⟩

end Sys2Proof.Machine
end


section
/-! PROOFS. Command words (`30_encoding.md`): decoder and encoder are inverse to each other (R46 to R50), and the
decoder follows the match and mask table of R48. -/

namespace Sys2Proof

/-! ### Decoder and encoder -/

/-- Decoding the word of a well-formed operation gives the operation back: the decoder reads from each field what the
encoder wrote there, and ROTR's operands fit their fields (R46, R47). -/
theorem decode_encode {i : Instr} (h : i.wellFormed = true) : decode (encode i) = .ok i := by
  cases i with
  | pack => decide
  | mask k =>
    simp [decode, encode, opField_commandWord, decodeMask_eq_ok_iff, rngField_commandWord, immField_commandWord]
  | rotr r n =>
    obtain ⟨hr, hn⟩ : r ≤ 15 ∧ n ≤ 255 := by simpa [Instr.wellFormed] using h
    simp [decode, encode, decodeRotr, opField_commandWord, rngField_commandWord, immField_commandWord,
      Nat.lt_succ_of_le hr, Nat.lt_succ_of_le hn]
  | sympk => decide
  | rend => decide
  | encode => decide

/-- The words that decode to an operation: the operation's own word, and only where it is well formed (R50). -/
theorem decode_eq_ok_iff {w : CmdWord} {i : Instr} :
    decode w = .ok i ↔ i.wellFormed = true ∧ encode i = w := by
  refine ⟨wellFormed_and_encode_of_decode, fun ⟨hwf, hword⟩ => ?_⟩
  rw [← hword]
  exact decode_encode hwf

/-- Settles O1: `decode_encode`. -/
theorem decodeOfEncodeIsTheInstruction : Obligations.DecodeOfEncodeIsTheInstruction :=
  fun _ hwf => decode_encode hwf

/-- Settles O2: the words that decode are the words of well-formed operations. -/
theorem encodeOfDecodeIsTheWord : Obligations.EncodeOfDecodeIsTheWord :=
  fun _ _ hdecode => decode_eq_ok_iff.mp hdecode

/-! ### The match and mask table -/

/-- Command words are equal exactly when their three fields are (R46). -/
theorem commandWord_inj {op op' rng rng' : BitVec 4} {imm imm' : Byte} :
    commandWord op rng imm = commandWord op' rng' imm' ↔ op = op' ∧ rng = rng' ∧ imm = imm' := by
  refine ⟨fun h => ⟨?op, ?rng, ?imm⟩, fun ⟨hop, hrng, himm⟩ => by rw [hop, hrng, himm]⟩
  case op => simpa only [opField_commandWord] using congrArg opField h
  case rng => simpa only [rngField_commandWord] using congrArg rngField h
  case imm => simpa only [immField_commandWord] using congrArg immField h

/-- A mask written field by field masks a command word field by field (R46). -/
theorem commandWord_and (op op' rng rng' : BitVec 4) (imm imm' : Byte) :
    commandWord op rng imm &&& commandWord op' rng' imm' =
      commandWord (op &&& op') (rng &&& rng') (imm &&& imm') := by
  exact BitVec.and_append.trans (congrArg (· ++ (imm &&& imm')) BitVec.and_append)

/-- A word under a mask, by its fields: it matches a pattern exactly when each masked field does (R48). -/
theorem and_commandWord_eq_iff {w : CmdWord} {op op' rng rng' : BitVec 4} {imm imm' : Byte} :
    w &&& commandWord op rng imm = commandWord op' rng' imm' ↔
      opField w &&& op = op' ∧ rngField w &&& rng = rng' ∧ immField w &&& imm = imm' := by
  conv_lhs => rw [← commandWord_fields w]
  rw [commandWord_and, commandWord_inj]

/-- The word put together from known `op` and `rng` and its own `imm` is the word itself exactly when those two are its
fields. -/
theorem commandWord_immField_eq_iff {w : CmdWord} {op rng : BitVec 4} :
    commandWord op rng (immField w) = w ↔ opField w = op ∧ rngField w = rng := by
  conv_lhs => rhs; rw [← commandWord_fields w]
  rw [commandWord_inj]
  exact ⟨fun ⟨hop, hrng, _⟩ => ⟨hop.symm, hrng.symm⟩, fun ⟨hop, hrng⟩ => ⟨hop.symm, hrng.symm, rfl⟩⟩

/-- The mask of a whole field of four bits keeps the field. -/
theorem and_nibbleMask (v : BitVec 4) : v &&& 0xF#4 = v := BitVec.and_allOnes

/-- An operation without operands decodes from its row's pattern alone (R48). -/
theorem decode_eq_ok_iff_of_fullMask {w : CmdWord} {i : Instr} (hwf : i.wellFormed = true) :
    decode w = .ok i ↔ w &&& 0xFFFF = encode i := by
  have full : w &&& 0xFFFF = w := BitVec.and_allOnes
  rw [decode_eq_ok_iff, full]
  exact ⟨fun ⟨_, hword⟩ => hword.symm, fun hword => ⟨hwf, hword.symm⟩⟩

/-- MASK's row: `op` and `rng` are fixed, `imm` is the key byte (R48). -/
theorem decode_eq_mask_immField_iff {w : CmdWord} :
    decode w = .ok (.mask (immField w)) ↔ w &&& 0xFF00 = 0x2000 := by
  calc decode w = .ok (.mask (immField w))
      ↔ commandWord 0x2 0 (immField w) = w := decode_eq_ok_iff.trans (and_iff_right rfl)
    _ ↔ opField w = 0x2 ∧ rngField w = 0 := commandWord_immField_eq_iff
    _ ↔ w &&& commandWord 0xF 0xF 0 = commandWord 0x2 0 0 := by
        simp [and_commandWord_eq_iff, and_nibbleMask]

/-- ROTR's row: only `op` is fixed, the other two fields are the operands (R48). -/
theorem decode_eq_rotr_fields_iff {w : CmdWord} :
    decode w = .ok (.rotr (rngField w).toNat (immField w).toNat) ↔ w &&& 0xF000 = 0x3000 := by
  calc decode w = .ok (.rotr (rngField w).toNat (immField w).toNat)
      ↔ commandWord 0x3 (rngField w) (immField w) = w := by
        rw [decode_eq_ok_iff, and_iff_right (wellFormed_rotr_toNat _ _), encode, BitVec.ofNat_toNat,
          BitVec.ofNat_toNat, BitVec.setWidth_eq, BitVec.setWidth_eq]
    _ ↔ opField w = 0x3 := commandWord_immField_eq_iff.trans (and_iff_left rfl)
    _ ↔ w &&& commandWord 0xF 0 0 = commandWord 0x3 0 0 := by
        simp [and_commandWord_eq_iff, and_nibbleMask]

/-- Settles O3: one lemma per form of row, and a word of no row does not decode (R48, R49). -/
theorem decodeFollowsTheOpcodeMap : Obligations.DecodeFollowsTheOpcodeMap := by
  intro w
  refine ⟨decode_eq_ok_iff_of_fullMask rfl, decode_eq_mask_immField_iff, decode_eq_rotr_fields_iff,
    decode_eq_ok_iff_of_fullMask rfl, decode_eq_ok_iff_of_fullMask rfl, decode_eq_ok_iff_of_fullMask rfl,
    fun ⟨hpack, hmask, hrotr, hsympk, hrend, hencode⟩ => decode_error_of_no_row ?_⟩
  simp only [opcodeTable, List.forall_mem_cons]
  exact ⟨hpack, hmask, hrotr, hsympk, hrend, hencode, nofun⟩

/-! ### Samples -/

/-- Settles O4, by evaluation of the decoder on the listed words. -/
theorem sampleWordsDecode : Obligations.SampleWordsDecode := by
  unfold Obligations.SampleWordsDecode
  decide

/-- Settles O6, by evaluation of the assembler on the listed lines. -/
theorem Machine.assemblerReadsItsText : Obligations.AssemblerReadsItsText := by
  unfold Obligations.AssemblerReadsItsText
  decide

end Sys2Proof
end


section
/-! PROOFS. What an operation and a step can do: the inversion of `exec`, the fields no operation writes (R14), precise
faults (R120, R127), the invariant between operations, and the host's moves (R140, R146). -/

namespace Sys2Proof.Machine

/-! ### What an operation can do -/

/-- Every case of `exec`: a faulted block does nothing (R128); ROTR with a range above 8 records RangeFault and nothing
else (R77, R127); every other operation writes `CB`, `SYM` and `OUT` only, and leaves `SEQ` as it was or at 0
(R116). -/
theorem exec_cases {i : Instr} {s t : State} (h : exec i s = .next t) :
    (s.fault.valid = true ∧ t = s) ∨
    (s.fault.valid = false ∧ (∃ r n, i = .rotr r n ∧ 8 < r) ∧ t = s.setFault ⟨true, 2⟩) ∨
    (s.fault.valid = false ∧ t = { s with cb := t.cb, sym := t.sym, out := t.out, seq := t.seq } ∧
      (t.seq = s.seq ∨ t.seq = 0)) := by
  cases hfault : s.fault.valid with
  | true =>
    cases (exec_faulted i s hfault).symm.trans h
    exact .inl ⟨rfl, rfl⟩
  | false =>
    cases i with
    | pack => cases (exec_pack_unfaulted s hfault).symm.trans h; exact .inr (.inr ⟨rfl, rfl, .inl rfl⟩)
    | mask k => cases (exec_mask_unfaulted k s hfault).symm.trans h; exact .inr (.inr ⟨rfl, rfl, .inl rfl⟩)
    | sympk => cases (exec_sympk_unfaulted s hfault).symm.trans h; exact .inr (.inr ⟨rfl, rfl, .inl rfl⟩)
    | rend => cases (exec_rend_unfaulted s hfault).symm.trans h; exact .inr (.inr ⟨rfl, rfl, .inl rfl⟩)
    | rotr r n =>
      by_cases hr : r < 9
      · rw [exec_rotr_unfaulted r n s hfault, rotrStage_legal r n s hr] at h
        cases h
        exact .inr (.inr ⟨rfl, rfl, .inl rfl⟩)
      · have hr8 : 8 < r := Nat.not_lt.mp hr
        cases (rotrOutOfBoundsRaisesRangeFault s r n hfault hr8).symm.trans h
        exact .inr (.inl ⟨rfl, ⟨r, n, rfl, hr8⟩, rfl⟩)
    | encode =>
      rw [exec_encode_unfaulted s hfault, encodeStage_unfaulted s hfault, rotrStage_legal (h := by decide),
        rotrStage_legal (h := by decide)] at h
      cases h
      exact .inr (.inr ⟨rfl, rfl, .inr rfl⟩)

/-- Performing an effect, or ignoring it, answers a next state. -/
theorem perform_next (effect : State → State) (s : State) : ∃ t, performUnlessFaulted effect s = .next t := by
  cases hfault : s.fault.valid with
  | true => exact ⟨s, perform_faulted effect s hfault⟩
  | false => exact ⟨effect s, perform_unfaulted effect s hfault⟩

/-- Every operation answers a next state (R125): it performs its stage or ignores it. -/
theorem exec_next (i : Instr) (s : State) : ∃ t, exec i s = .next t := by
  cases i <;> exact perform_next _ s

/-- Settles O17: in no case of `exec` is one of these fields written (R14). -/
theorem operationsNeverWriteThePorts : Obligations.OperationsNeverWriteThePorts := by
  intro i s t h
  obtain ⟨-, rfl⟩ | ⟨-, -, rfl⟩ | ⟨-, hframe, -⟩ := exec_cases h
  · exact ⟨rfl, rfl, rfl⟩
  · exact ⟨rfl, rfl, rfl⟩
  · rw [hframe]
    exact ⟨rfl, rfl, rfl⟩

/-- Settles O18: of the cases of `exec` only that of ROTR's range takes an unfaulted block to a faulted one (R120,
R123). -/
theorem faultsArePreciseAndOnlyFromRotr : Obligations.FaultsArePreciseAndOnlyFromRotr := by
  intro i s t hs h ht
  obtain ⟨hfaulted, -⟩ | ⟨-, hrotr, hfault⟩ | ⟨-, hframe, -⟩ := exec_cases h
  · rw [hs] at hfaulted
    cases hfaulted
  · exact ⟨hrotr, hfault⟩
  · have unchanged : t.fault = s.fault := by rw [hframe]
    rw [unchanged, hs] at ht
    cases ht

/-! ### The invariant between operations -/

/-- The two causes that can arise (R120); the others are excluded by the types (log entry 10). -/
def Cause.Reachable (c : Cause) : Prop := c = .illegalCommand ∨ c = .rangeFault

/-- Raising a reachable cause keeps the invariant. -/
theorem inv_raise {c : Cause} (hc : c.Reachable) {s : State} (hs : Safety.Inv s) : Safety.Inv (raise c s) := by
  cases hfault : s.fault.valid with
  | true => rwa [raise_faulted c s hfault]
  | false =>
    obtain ⟨hseq, -, -⟩ := hs
    rw [raise_unfaulted c s hfault]
    refine ⟨hseq, nofun, fun _ => ?_⟩
    obtain rfl | rfl := hc
    · exact .inl rfl
    · exact .inr rfl

/-- The invariant speaks of `FAULT` and `SEQ` only: it is kept where `FAULT` stays and `SEQ` stays or becomes 0. -/
theorem inv_of_fault_eq {s t : State} (hs : Safety.Inv s) (hfault : t.fault = s.fault)
    (hseq : t.seq = s.seq ∨ t.seq = 0) : Safety.Inv t := by
  obtain ⟨hzero, hclear, hcode⟩ := hs
  rw [← hfault] at hclear hcode
  exact ⟨hseq.elim (·.trans hzero) id, hclear, hcode⟩

/-- Every operation keeps the invariant. -/
theorem inv_exec {i : Instr} {s t : State} (hs : Safety.Inv s) (h : exec i s = .next t) : Safety.Inv t := by
  obtain ⟨-, rfl⟩ | ⟨hfault, -, rfl⟩ | ⟨-, hframe, hseq⟩ := exec_cases h
  · exact hs
  · exact raise_unfaulted .rangeFault s hfault ▸ inv_raise (.inr rfl) hs
  · exact inv_of_fault_eq hs (by rw [hframe]) hseq

/-- Every move of the host keeps the invariant. -/
theorem inv_performMove {m : HostMove} {s t : State} (hs : Safety.Inv s) (h : performMove m s = .next t) :
    Safety.Inv t := by
  cases m with
  | drive p => cases h; exact inv_of_fault_eq hs (State.setParams_fault s p) (.inl rfl)
  | reset => cases h; exact ⟨applyReset_seq s, fun _ => rfl, nofun⟩
  | command w =>
    cases hdecode : decode w with
    | ok i => exact inv_exec hs ((issue_ok w i s hdecode).symm.trans h)
    | error reason =>
      cases (issue_error w reason s hdecode).symm.trans h
      exact inv_raise (.inl rfl) hs

/-- Settles O16: the block waits, or performs a move of the host, which keeps the invariant. -/
theorem stepKeepsTheInvariant : Obligations.StepKeepsTheInvariant := by
  intro s t hs h
  cases hmoves : s.moves with
  | nil =>
    cases (step_idle s hmoves).symm.trans h
    exact hs
  | cons m rest =>
    have taken : Safety.Inv (s.setMoves rest) := inv_of_fault_eq hs (State.setMoves_fault s rest) (.inl rfl)
    exact inv_performMove taken ((step_move s m rest hmoves).symm.trans h)

/-- Settles O15: the exact reset values meet the invariant (R25). -/
theorem resetStateMeetsTheInvariant : Obligations.ResetStateMeetsTheInvariant := ⟨rfl, fun _ => rfl, nofun⟩

/-- Settles O14: the values written in the reset state (R25). -/
theorem resetStateExactValues : Obligations.ResetStateExactValues := ⟨rfl, rfl, rfl⟩

/-! ### The host's moves -/

/-- Settles O7: the step performs the move, and the word is issued as its operation. -/
theorem stepRunsTheIssuedCommand : Obligations.StepRunsTheIssuedCommand := by
  intro s w rest i hmoves hdecode
  calc step s = issue w (s.setMoves rest) := step_move s _ rest hmoves
    _ = exec i (s.setMoves rest) := issue_ok w i _ hdecode

/-- Settles O10: the step applies reset to the state with the move taken off (R140). -/
theorem resetClearsFaultAndSeq : Obligations.ResetClearsFaultAndSeq := by
  intro s rest hmoves
  exact ⟨applyReset (s.setMoves rest), step_move s .reset rest hmoves, applyReset_fault _, applyReset_seq _,
    applyReset_params _, applyReset_moves _⟩

/-- Settles O11: the step drives the ports of the state with the move taken off (R146). -/
theorem driveSetsThePortsOnly : Obligations.DriveSetsThePortsOnly :=
  fun s p rest hmoves => step_move s (.drive p) rest hmoves

/-- Settles O12: `step_idle`. -/
theorem idleBlockWaits : Obligations.IdleBlockWaits := step_idle

/-- Every move of the host answers a next state (R125, log entry 9). -/
theorem performMove_next (m : HostMove) (s : State) : ∃ t, performMove m s = .next t := by
  cases m with
  | drive p => exact ⟨_, rfl⟩
  | reset => exact ⟨_, rfl⟩
  | command w =>
    cases hdecode : decode w with
    | ok i =>
      obtain ⟨t, ht⟩ := exec_next i s
      exact ⟨t, (issue_ok w i s hdecode).trans ht⟩
    | error reason => exact ⟨_, issue_error w reason s hdecode⟩

/-- Settles O13: the block waits, or performs a move of the host. -/
theorem stepAlwaysAnswersANextState : Obligations.StepAlwaysAnswersANextState := by
  intro s
  cases hmoves : s.moves with
  | nil => exact ⟨s, step_idle s hmoves⟩
  | cons m rest =>
    obtain ⟨t, ht⟩ := performMove_next m (s.setMoves rest)
    exact ⟨t, (step_move s m rest hmoves).trans ht⟩

/-! ### The parameters -/

/-- Settles O19: the channels and the bit order by definition, `shift1` as the key's low nibble, the codes by
evaluation (R12, R18, R114). -/
theorem parametersHaveTheDefaults : Obligations.ParametersHaveTheDefaults := by
  refine ⟨fun c => ⟨rfl, rfl, rfl⟩, fun k => ?shift1, rfl, by decide⟩
  case shift1 => exact BitVec.extractLsb'_toNat 0 4 k

end Sys2Proof.Machine
end


section
/-! PROOFS. The Field Packer (`40_field_packer.md`): the clear bits of the packed colours (R62) and the checksums
(R63). -/

namespace Sys2Proof.Machine

/-- Bit 7 of the high byte of a 15-bit number is 0 (R62). -/
theorem hi8_setWidth_getLsbD_seven (v : BitVec 15) : (hi8 (v.setWidth 16)).getLsbD 7 = false := by
  simp [hi8, BitVec.getLsbD_of_ge]

/-- Settles O22: `CB[1]` and `CB[3]` are the high bytes of the two packed colours, which have 15 bits (R62). -/
theorem packedHighBytesHaveBitSevenClear : Obligations.PackedHighBytesHaveBitSevenClear := by
  intro s hfault
  exact ⟨packStage s, exec_pack_unfaulted s hfault, hi8_setWidth_getLsbD_seven _, hi8_setWidth_getLsbD_seven _⟩

/-- XOR with the three terms of a checksum leaves the fourth. -/
theorem xor_xor_xor_cancel (a b c d : Byte) : a ^^^ b ^^^ c ^^^ d ^^^ a ^^^ b ^^^ c = d := by
  calc a ^^^ b ^^^ c ^^^ d ^^^ a ^^^ b ^^^ c
      = (a ^^^ a) ^^^ (b ^^^ b) ^^^ (c ^^^ c) ^^^ d := by ac_rfl
    _ = d := by simp only [BitVec.xor_self, BitVec.zero_xor]

/-- Settles O23: the checksum cells are the XOR of two colour bytes, one parameter byte and one byte of the trainer
identifier; of the nine cells only the last reads the key (R61, R63). -/
theorem checksumsHoldTheTrainerIdentifier : Obligations.ChecksumsHoldTheTrainerIdentifier := by
  intro s k hfault
  exact ⟨packStage s, packStage (s.setParams { s.params with key := k }), exec_pack_unfaulted s hfault,
    exec_pack_unfaulted _ hfault, xor_xor_xor_cancel _ _ _ _, xor_xor_xor_cancel _ _ _ _, rfl, rfl, rfl⟩

end Sys2Proof.Machine
end

section
/-! PROOFS. Operations that only map the Code Buffer, MASK and ROTR with a legal range, and how two of them compose;
and MASK's combination (`42_masker.md` R88). -/

namespace Sys2Proof.Machine

/-! ### Operations that map the Code Buffer -/

/-- `CB <- f CB`, unless a fault is recorded: what MASK, and ROTR with a legal range, do to a state. -/
def State.mapCode (f : CodeBuffer → CodeBuffer) (s : State) : State := if s.faulted then s else s.setCode (f s.cb)

theorem State.mapCode_of_faulted (f : CodeBuffer → CodeBuffer) {s : State} (h : s.faulted = true) :
    s.mapCode f = s := by
  rw [State.mapCode, if_pos h]

theorem State.mapCode_of_unfaulted (f : CodeBuffer → CodeBuffer) {s : State} (h : s.faulted = false) :
    s.mapCode f = s.setCode (f s.cb) := by
  rw [State.mapCode, h]
  rfl

/-- One mapping after another is the mapping by the composition. -/
theorem State.mapCode_mapCode (f g : CodeBuffer → CodeBuffer) (s : State) :
    (s.mapCode f).mapCode g = s.mapCode (g ∘ f) := by
  cases h : s.faulted with
  | true => rw [mapCode_of_faulted f h, mapCode_of_faulted g h, mapCode_of_faulted _ h]
  | false =>
    rw [mapCode_of_unfaulted f h, mapCode_of_unfaulted g (s := s.setCode (f s.cb)) h, mapCode_of_unfaulted _ h]
    rfl

/-- The mapping that changes no buffer changes no state. -/
theorem State.mapCode_id (s : State) : s.mapCode id = s := by
  simp [State.mapCode]

/-- An operation whose stage maps `CB` and writes nothing else is that mapping. -/
theorem perform_eq_mapCode {effect : State → State} {f : CodeBuffer → CodeBuffer}
    (h : ∀ s, effect s = s.setCode (f s.cb)) (s : State) :
    performUnlessFaulted effect s = .next (s.mapCode f) := by
  simp only [performUnlessFaulted, State.mapCode, h]
  split_ifs <;> rfl

/-- MASK maps `CB` by `maskBuffer`, in every state (R86, R128). -/
theorem exec_mask_eq_mapCode (k : Byte) (s : State) : exec (.mask k) s = .next (s.mapCode (maskBuffer k)) :=
  perform_eq_mapCode (maskStage_eq k) s

/-- ROTR with a legal range maps `CB` by `rotateBuffer`, in every state (R75, R128). -/
theorem exec_rotr_eq_mapCode (r : Fin 9) (n : Nat) (s : State) :
    exec (.rotr r.val n) s = .next (s.mapCode (rotateBuffer r n)) :=
  perform_eq_mapCode (fun s => rotrStage_legal r.val n s r.isLt) s

/-! ### MASK -/

/-- The bits of the mask: bit `j` is the bit of the key's high nibble at the same place of the nibble (R85). -/
theorem maskByte_getLsbD (k : Byte) {j : Nat} (hj : j < 8) : (maskByte k).getLsbD j = k.getLsbD (4 + j % 4) := by
  have nibble : ∀ j : Fin 8, (0xF0#8).getLsbD j = decide (4 ≤ j.val) := by decide
  have masked {i : Nat} (hi : i < 8) : (k &&& 0xF0).getLsbD i = (k.getLsbD i && decide (4 ≤ i)) := by
    rw [BitVec.getLsbD_and]
    exact congrArg _ (nibble ⟨i, hi⟩)
  rw [maskByte, BitVec.getLsbD_or, BitVec.getLsbD_ushiftRight, masked hj]
  by_cases hlow : j < 4
  · rw [masked (by omega), Nat.mod_eq_of_lt hlow]
    simp [hlow]
  · rw [BitVec.getLsbD_of_ge _ (4 + j) (by omega), show 4 + j % 4 = j by omega]
    simp [Nat.le_of_not_lt hlow]

/-- The mask of the XOR of two keys is the XOR of their masks (R88). -/
theorem maskByte_xor (a b : Byte) : maskByte (a ^^^ b) = maskByte a ^^^ maskByte b := by
  apply BitVec.eq_of_getLsbD_eq
  intro j hj
  simp only [BitVec.getLsbD_xor, maskByte_getLsbD _ hj]

/-- Two maskings of a buffer make one with the XOR of the keys (R88). -/
theorem maskBuffer_comp (a b : Byte) : maskBuffer b ∘ maskBuffer a = maskBuffer (a ^^^ b) := by
  funext cb
  apply Vector.ext
  intro i hi
  rw [Function.comp_apply]
  simp only [maskBuffer_getElem]
  split_ifs
  · rw [maskByte_xor, BitVec.xor_assoc]
  · rfl

/-- The key 0 masks nothing (R85). -/
theorem maskBuffer_zero : maskBuffer 0 = id := by
  funext cb
  apply Vector.ext
  intro i hi
  have zero : maskByte 0#8 = 0#8 := by decide
  simp [maskBuffer_getElem, zero]

/-- Settles O26: MASK maps the buffer, and the maskings combine by the XOR of the keys; a key XOR itself is 0
(R88). -/
theorem masksCombineByXor : Obligations.MasksCombineByXor := by
  intro s a b
  refine ⟨s.mapCode (maskBuffer a), exec_mask_eq_mapCode a s, ?combined, ?undone⟩
  case combined => simp only [exec_mask_eq_mapCode, State.mapCode_mapCode, maskBuffer_comp]
  case undone =>
    rw [exec_mask_eq_mapCode, State.mapCode_mapCode, maskBuffer_comp, BitVec.xor_self]
    exact congrArg _ ((congrArg s.mapCode maskBuffer_zero).trans s.mapCode_id)

end Sys2Proof.Machine
end


section
/-! PROOFS. The stream view of the Code Buffer (`20_memory.md` R34): 72 bits, whose order `msbFirst` is that of the ring
positions (bit `b` of byte `i` at `8 i + (7 - b)`) and whose order `lsbFirst` is the Symbol Packer's (R91). -/

namespace Sys2Proof.Machine

/-- The stream wraps modulo 72 (R91). -/
theorem streamBit_mod (order : SymBitOrder) (cb : CodeBuffer) (j : Nat) :
    streamBit order cb (j % 72) = streamBit order cb j := by
  simp only [streamBit, Nat.mod_mod]

/-- Position `8 i + b` of the order `lsbFirst` is bit `b` of byte `i` (R91). -/
theorem streamBit_lsbFirst_eq (cb : CodeBuffer) {j i b : Nat} (hi : i < 9) (hb : b < 8) (hj : j % 72 = 8 * i + b) :
    streamBit .lsbFirst cb j = cb[i].getLsbD b := by
  have hdiv : j % 72 / 8 = i := by omega
  have hmod : j % 72 % 8 = b := by omega
  simp only [streamBit, hdiv, hmod]

/-- Position `8 i + (7 - b)` of the order `msbFirst` is bit `b` of byte `i` (R34, R98). -/
theorem streamBit_msbFirst_eq (cb : CodeBuffer) {j i b : Nat} (hi : i < 9) (hb : b < 8)
    (hj : j % 72 = 8 * i + (7 - b)) : streamBit .msbFirst cb j = cb[i].getLsbD b := by
  have hdiv : j % 72 / 8 = i := by omega
  have hmod : 7 - j % 72 % 8 = b := by omega
  simp only [streamBit, hdiv, hmod]

/-- A buffer is its 72 stream bits, in either order (R34). -/
theorem codeBuffer_ext_streamBit (order : SymBitOrder) {cb cb' : CodeBuffer}
    (h : ∀ p < 72, streamBit order cb p = streamBit order cb' p) : cb = cb' := by
  apply Vector.ext
  intro i hi
  apply BitVec.eq_of_getLsbD_eq
  intro b hb
  cases order with
  | lsbFirst =>
    have hpos : (8 * i + b) % 72 = 8 * i + b := Nat.mod_eq_of_lt (by omega)
    rw [← streamBit_lsbFirst_eq cb hi hb hpos, ← streamBit_lsbFirst_eq cb' hi hb hpos]
    exact h _ (by omega)
  | msbFirst =>
    have hpos : (8 * i + (7 - b)) % 72 = 8 * i + (7 - b) := Nat.mod_eq_of_lt (by omega)
    rw [← streamBit_msbFirst_eq cb hi hb hpos, ← streamBit_msbFirst_eq cb' hi hb hpos]
    exact h _ (by omega)

end Sys2Proof.Machine
end

section
/-! PROOFS. The Circular Rotator's closed form and laws (`41_rotator.md` R76 to R79): ROTR moves the bit at each ring
position on by its amount, modulo the ring's width, and the laws of R78 and R79 follow from that alone. -/

namespace Sys2Proof.Machine

/-! ### Rotated buffers -/

/-- `W = 8 (r + 1)`, the ring's number of bits (R76). -/
def ringWidth (r : Fin 9) : Nat := 8 * (r.val + 1)

theorem ringWidth_pos (r : Fin 9) : 0 < ringWidth r := by
  unfold ringWidth
  omega

theorem ringWidth_le (r : Fin 9) : ringWidth r ≤ 72 := by
  unfold ringWidth
  omega

/-- A position is in the ring exactly when its byte is (R76). -/
theorem lt_ringWidth_iff {r i : Fin 9} {b : Nat} (hb : b < 8) : 8 * i.val + b < ringWidth r ↔ i ≤ r := by
  rw [Fin.le_def, ringWidth]
  omega

/-- Positions modulo the ring's width are bytes modulo the ring's length, the place in the byte staying. -/
theorem mod_ringWidth (r : Fin 9) (x : Nat) {c : Nat} (hc : c < 8) :
    (8 * x + c) % ringWidth r = 8 * (x % (r.val + 1)) + c := by
  have hdiv : (8 * x + c) / 8 = x := by omega
  have hmod : (8 * x + c) % 8 = c := by omega
  rw [ringWidth, Nat.mod_mul, hdiv, hmod, Nat.add_comm]

/-- The byte of the ring at a place counted modulo the ring's length. -/
theorem exists_ring_byte (r : Fin 9) (x : Nat) : ∃ j : Fin 9, j.val = x % (r.val + 1) :=
  ⟨⟨_, (Nat.mod_lt x (Nat.succ_pos _)).trans_le r.isLt⟩, rfl⟩

/-- `cb'` is `cb` with its ring `0` to `r` rotated by `n` positions, the rest being the same (R76). -/
structure RingRotated (r : Fin 9) (n : Nat) (cb cb' : CodeBuffer) : Prop where
  /-- The bit at ring position `p` moves to position `(p + n) mod W`. -/
  moved : ∀ p < ringWidth r, streamBit .msbFirst cb' ((p + n) % ringWidth r) = streamBit .msbFirst cb p
  /-- A position outside the ring keeps its bit. -/
  outside : ∀ p, ringWidth r ≤ p → p < 72 → streamBit .msbFirst cb' p = streamBit .msbFirst cb p

/-- Every ring position is one that some ring position moves to. -/
theorem exists_ring_source (r : Fin 9) (n : Nat) {q : Nat} (hq : q < ringWidth r) :
    ∃ p < ringWidth r, (p + n) % ringWidth r = q := by
  have hpos := ringWidth_pos r
  have hn : n % ringWidth r < ringWidth r := Nat.mod_lt _ hpos
  refine ⟨(q + (ringWidth r - n % ringWidth r)) % ringWidth r, Nat.mod_lt _ hpos, ?_⟩
  calc ((q + (ringWidth r - n % ringWidth r)) % ringWidth r + n) % ringWidth r
      = (q + (ringWidth r - n % ringWidth r) + n % ringWidth r) % ringWidth r := by
        rw [Nat.mod_add_mod, Nat.add_mod_mod]
    _ = (q + ringWidth r) % ringWidth r := by rw [Nat.add_assoc, Nat.sub_add_cancel hn.le]
    _ = q := by rw [Nat.add_mod_right, Nat.mod_eq_of_lt hq]

namespace RingRotated

variable {r : Fin 9} {m n : Nat} {cb cb' cb'' : CodeBuffer}

/-- A buffer has one rotation by an amount: every position is reached, or is outside the ring. -/
theorem unique (h : RingRotated r n cb cb') (h' : RingRotated r n cb cb'') : cb' = cb'' := by
  apply codeBuffer_ext_streamBit .msbFirst
  intro q hq
  obtain hring | hout := Nat.lt_or_ge q (ringWidth r)
  · obtain ⟨p, hp, rfl⟩ := exists_ring_source r n hring
    rw [h.moved p hp, h'.moved p hp]
  · rw [h.outside q hout hq, h'.outside q hout hq]

/-- Rotations of one ring add up (R79). -/
theorem trans (h : RingRotated r m cb cb') (h' : RingRotated r n cb' cb'') : RingRotated r (m + n) cb cb'' where
  moved p hp := by
    have hmid : (p + m) % ringWidth r < ringWidth r := Nat.mod_lt _ (ringWidth_pos r)
    rw [← h.moved p hp, ← h'.moved _ hmid, Nat.mod_add_mod, Nat.add_assoc]
  outside p hout hp := by rw [h'.outside p hout hp, h.outside p hout hp]

/-- The amount counts modulo the ring's width (R78). -/
theorem of_mod_eq (h : RingRotated r m cb cb') (hmn : m % ringWidth r = n % ringWidth r) :
    RingRotated r n cb cb' where
  moved p hp := by rw [← h.moved p hp, ← Nat.add_mod_mod, ← hmn, Nat.add_mod_mod]
  outside := h.outside

/-- Every buffer is its own rotation by 0. -/
theorem zero (r : Fin 9) (cb : CodeBuffer) : RingRotated r 0 cb cb where
  moved p hp := by rw [Nat.add_zero, Nat.mod_eq_of_lt hp]
  outside _ _ _ := rfl

/-- The rotation, byte by byte: where bit `b` of ring byte `i` goes. -/
theorem of_bits
    (hmoved : ∀ (i : Fin 9) (b : Fin 8), i ≤ r →
      streamBit .msbFirst cb' ((8 * i.val + (7 - b.val) + n) % ringWidth r) = cb[i].getLsbD b.val)
    (houtside : ∀ i : Fin 9, r < i → cb'[i] = cb[i]) : RingRotated r n cb cb' where
  moved p hp := by
    have hp72 : p < 72 := hp.trans_le (ringWidth_le r)
    obtain ⟨i, hi⟩ : ∃ i : Fin 9, i.val = p / 8 := ⟨⟨p / 8, by omega⟩, rfl⟩
    obtain ⟨b, hb⟩ : ∃ b : Fin 8, b.val = 7 - p % 8 := ⟨⟨7 - p % 8, by omega⟩, rfl⟩
    obtain rfl : p = 8 * i.val + (7 - b.val) := by omega
    rw [hmoved i b ((lt_ringWidth_iff (by omega)).mp hp),
      streamBit_msbFirst_eq cb i.isLt b.isLt (Nat.mod_eq_of_lt hp72)]
    rfl
  outside p hout hp := by
    obtain ⟨i, hi⟩ : ∃ i : Fin 9, i.val = p / 8 := ⟨⟨p / 8, by omega⟩, rfl⟩
    have hpos : p % 72 = 8 * i.val + (7 - (7 - p % 8)) := by omega
    have hri : r < i := by
      rw [ringWidth] at hout
      omega
    rw [streamBit_msbFirst_eq cb' i.isLt (by omega) hpos, streamBit_msbFirst_eq cb i.isLt (by omega) hpos]
    exact congrArg (BitVec.getLsbD · _) (houtside i hri)

/-- Where bit `b` of ring byte `i` goes, read off the rotated buffer's bytes (R76). -/
theorem getLsbD_eq (h : RingRotated r n cb cb') {i i' : Fin 9} {b b' : Nat} (hb : b < 8) (hb' : b' < 8) (hi : i ≤ r)
    (hpos : 8 * i'.val + (7 - b') = (8 * i.val + (7 - b) + n) % ringWidth r) :
    cb'[i'].getLsbD b' = cb[i].getLsbD b := by
  have source := streamBit_msbFirst_eq cb (j := 8 * i.val + (7 - b)) i.isLt hb (Nat.mod_eq_of_lt (by omega))
  have target := streamBit_msbFirst_eq cb' (j := 8 * i'.val + (7 - b')) i'.isLt hb' (Nat.mod_eq_of_lt (by omega))
  have moved := h.moved (8 * i.val + (7 - b)) ((lt_ringWidth_iff (by omega)).mpr hi)
  rw [← hpos, source, target] at moved
  exact moved

/-- A byte outside the ring stays (R76). -/
theorem getElem_outside (h : RingRotated r n cb cb') {i : Fin 9} (hi : r < i) : cb'[i] = cb[i] := by
  apply BitVec.eq_of_getLsbD_eq
  intro b hb
  have hpos : (8 * i.val + (7 - b)) % 72 = 8 * i.val + (7 - b) := Nat.mod_eq_of_lt (by omega)
  have hout : ringWidth r ≤ 8 * i.val + (7 - b) := by
    rw [ringWidth]
    omega
  have kept := h.outside _ hout (by omega)
  rw [streamBit_msbFirst_eq cb' i.isLt hb hpos, streamBit_msbFirst_eq cb i.isLt hb hpos] at kept
  exact kept

end RingRotated

/-! ### The two phases rotate the ring -/

/-- `q` byte steps rotate the ring by `8 q` positions (R72). -/
theorem ringRotated_byteRot_iterate (r : Fin 9) (q : Nat) (cb : CodeBuffer) :
    RingRotated r (8 * q) cb ((byteRot r)^[q] cb) := by
  apply RingRotated.of_bits
  case hmoved =>
    intro i b hi
    obtain ⟨j, hj⟩ := exists_ring_byte r (i.val + q)
    have hpos : (8 * i.val + (7 - b.val) + 8 * q) % ringWidth r = 8 * j.val + (7 - b.val) := by
      rw [hj, ← mod_ringWidth r _ (by omega), Nat.mul_add, Nat.add_right_comm]
    rw [hpos, streamBit_msbFirst_eq _ j.isLt b.isLt (Nat.mod_eq_of_lt (by omega)), ← Fin.getElem_fin,
      byteRot_iterate_getElem r cb q hi hj]
  case houtside =>
    intro i hi
    induction q with
    | zero => rfl
    | succ q ih =>
      rw [Function.iterate_succ_apply', Fin.getElem_fin, byteRot_getElem, if_neg (Nat.not_le_of_lt hi)]
      exact ih

/-- The bits of `low_k(v)` (R5). -/
theorem lowBits_getLsbD (k : Nat) (v : Byte) {j : Nat} (hj : j < 8) :
    (lowBits k v).getLsbD j = (decide (j < k) && v.getLsbD j) := by
  rw [lowBits, BitVec.getLsbD_ofNat, decide_eq_true hj, Bool.true_and, Nat.testBit_mod_two_pow]
  rfl

/-- The sub-byte step: a bit with at least `k` bits below it moves down in its byte (R73). -/
theorem subRot_getLsbD_kept {r : Fin 9} {k b : Nat} (cb : CodeBuffer) {i : Fin 9} (hi : i ≤ r) (hk : k ≤ b)
    (hb : b < 8) : (subRot r k cb)[i].getLsbD (b - k) = cb[i].getLsbD b := by
  rw [Fin.getElem_fin, subRot_getElem, if_pos (Fin.le_def.mp hi), BitVec.getLsbD_or, BitVec.getLsbD_ushiftRight,
    BitVec.getLsbD_shiftLeft, Nat.add_sub_cancel' hk, decide_eq_true (show b - k < 8 - k by omega)]
  simp

/-- The sub-byte step: one of the low `k` bits moves to the top of the next byte of the ring (R73). -/
theorem subRot_getLsbD_carried {r : Fin 9} {k b : Nat} (cb : CodeBuffer) {i j : Fin 9} (hi : i ≤ r)
    (hj : j.val = (i.val + 1) % (r.val + 1)) (hb : b < k) (hk : k ≤ 8) :
    (subRot r k cb)[j].getLsbD (8 - k + b) = cb[i].getLsbD b := by
  have hjr : j.val ≤ r.val := Nat.le_of_lt_succ (hj.trans_lt (Nat.mod_lt _ (Nat.succ_pos _)))
  have pred : (if j.val = 0 then cb[r.val] else cb[j.val - 1]) = cb[i] := by
    rw [← byteRot_getElem_next r cb hi hj, Fin.getElem_fin, byteRot_getElem, if_pos hjr]
  rw [Fin.getElem_fin, subRot_getElem, if_pos hjr, pred, BitVec.getLsbD_or, BitVec.getLsbD_ushiftRight,
    BitVec.getLsbD_of_ge _ (k + _) (by omega), BitVec.getLsbD_shiftLeft, Nat.add_sub_cancel_left,
    lowBits_getLsbD k _ (by omega), decide_eq_true hb, decide_eq_true (show 8 - k + b < 8 by omega),
    decide_eq_false (show ¬ 8 - k + b < 8 - k by omega)]
  rfl

/-- The sub-byte step by `k` rotates the ring by `k` positions (R73). -/
theorem ringRotated_subRot (r : Fin 9) {k : Nat} (hk : k < 8) (cb : CodeBuffer) :
    RingRotated r k cb (subRot r k cb) := by
  apply RingRotated.of_bits
  case hmoved =>
    intro i b hi
    by_cases hkept : k ≤ b.val
    · have hring : 8 * i.val + (7 - (b.val - k)) < ringWidth r := (lt_ringWidth_iff (by omega)).mpr hi
      have hpos : (8 * i.val + (7 - b.val) + k) % ringWidth r = 8 * i.val + (7 - (b.val - k)) := by
        rw [← Nat.mod_eq_of_lt hring]
        congr 1
        omega
      rw [hpos, streamBit_msbFirst_eq _ i.isLt (by omega) (Nat.mod_eq_of_lt (by omega)), ← Fin.getElem_fin,
        subRot_getLsbD_kept cb hi hkept b.isLt]
    · obtain ⟨j, hj⟩ := exists_ring_byte r (i.val + 1)
      have hpos : (8 * i.val + (7 - b.val) + k) % ringWidth r = 8 * j.val + (7 - (8 - k + b.val)) := by
        rw [hj, ← mod_ringWidth r _ (by omega)]
        congr 1
        omega
      rw [hpos, streamBit_msbFirst_eq _ j.isLt (by omega) (Nat.mod_eq_of_lt (by omega)), ← Fin.getElem_fin,
        subRot_getLsbD_carried cb hi hj (by omega) hk.le]
  case houtside =>
    intro i hi
    rw [Fin.getElem_fin, subRot_getElem, if_neg (Nat.not_le_of_lt hi)]
    rfl

/-- The two phases of ROTR rotate the ring by its amount (R71 to R76). -/
theorem ringRotated_rotateBuffer (r : Fin 9) (n : Nat) (cb : CodeBuffer) :
    RingRotated r n cb (rotateBuffer r n cb) := by
  have bytes := ringRotated_byteRot_iterate r (n / 8) cb
  by_cases hleft : n % 8 = 0
  · have skipped : rotateBuffer r n cb = (byteRot r)^[n / 8] cb := if_pos hleft
    rw [Nat.mul_div_cancel' (Nat.dvd_of_mod_eq_zero hleft)] at bytes
    rwa [skipped]
  · have shifted : rotateBuffer r n cb = subRot r (n % 8) ((byteRot r)^[n / 8] cb) := if_neg hleft
    have both := bytes.trans (ringRotated_subRot r (Nat.mod_lt n (by decide)) _)
    rw [Nat.div_add_mod] at both
    rwa [shifted]

/-- The closed form: whatever is rotated by `n` positions is ROTR's buffer (R76). -/
theorem RingRotated.eq_rotateBuffer {r : Fin 9} {n : Nat} {cb cb' : CodeBuffer} (h : RingRotated r n cb cb') :
    rotateBuffer r n cb = cb' :=
  (ringRotated_rotateBuffer r n cb).unique h

/-! ### The laws -/

/-- The amount counts modulo the ring's width, as buffers (R78). -/
theorem rotateBuffer_mod (r : Fin 9) (n : Nat) : rotateBuffer r (n % ringWidth r) = rotateBuffer r n := by
  funext cb
  exact RingRotated.eq_rotateBuffer ((ringRotated_rotateBuffer r n cb).of_mod_eq (Nat.mod_mod _ _).symm)

/-- Two rotations of one ring add up, as buffers (R79). -/
theorem rotateBuffer_comp (r : Fin 9) (a b : Nat) : rotateBuffer r b ∘ rotateBuffer r a = rotateBuffer r (a + b) := by
  funext cb
  exact ((ringRotated_rotateBuffer r a cb).trans (ringRotated_rotateBuffer r b _)).eq_rotateBuffer.symm

/-- A rotation by a multiple of the ring's width changes no buffer (R78). -/
theorem rotateBuffer_of_mod_eq_zero {r : Fin 9} {n : Nat} (h : n % ringWidth r = 0) : rotateBuffer r n = id := by
  funext cb
  exact ((RingRotated.zero r cb).of_mod_eq ((Nat.zero_mod _).trans h.symm)).eq_rotateBuffer

/-- Settles O31: an unfaulted ROTR writes the rotated buffer to `CB` alone, and that buffer is the ring rotated by `n`
positions (R76). -/
theorem rotrMovesEveryRingBit : Obligations.RotrMovesEveryRingBit := by
  intro s r n hfault
  have rotated := ringRotated_rotateBuffer r n s.cb
  refine ⟨s.setCode (rotateBuffer r n s.cb), rotrDoesTheTwoPhases s r n hfault, rfl, ?moved, ?outside⟩
  case moved =>
    intro i i' b b' hi _ hpos
    exact rotated.getLsbD_eq b.isLt b'.isLt hi hpos
  case outside => exact fun i hi => rotated.getElem_outside hi

/-- Settles O32: the rotated buffers are the same (R78). -/
theorem rotrAmountCountsModuloTheRing : Obligations.RotrAmountCountsModuloTheRing := by
  intro s r n
  rw [exec_rotr_eq_mapCode, exec_rotr_eq_mapCode, ← ringWidth, rotateBuffer_mod]

/-- Settles O33: ROTR maps the buffer, and the rotations compose to the rotation by the sum (R79). -/
theorem rotationsOfOneRingAddUp : Obligations.RotationsOfOneRingAddUp := by
  intro s r a b
  refine ⟨s.mapCode (rotateBuffer r a), exec_rotr_eq_mapCode r a s, ?_⟩
  rw [exec_rotr_eq_mapCode, exec_rotr_eq_mapCode, State.mapCode_mapCode, rotateBuffer_comp]

/-- Settles O34: the two amounts add up to a multiple of the ring's width (R79). -/
theorem rotrIsUndoneByTheComplement : Obligations.RotrIsUndoneByTheComplement := by
  intro s r n width
  have whole : (n + (width - n % width) % width) % ringWidth r = 0 := by
    have hle : n % width ≤ width := (Nat.mod_lt n (ringWidth_pos r)).le
    change (n + (width - n % width) % width) % width = 0
    rw [Nat.add_mod_mod, ← Nat.mod_add_mod, Nat.add_sub_cancel' hle, Nat.mod_self]
  refine ⟨s.mapCode (rotateBuffer r n), exec_rotr_eq_mapCode r n s, ?_⟩
  rw [exec_rotr_eq_mapCode, State.mapCode_mapCode, rotateBuffer_comp, rotateBuffer_of_mod_eq_zero whole,
    State.mapCode_id]

/-! ### The number of ones -/

/-- The ring positions that hold a 1. -/
def ringOnes (r : Fin 9) (cb : CodeBuffer) : Finset Nat :=
  (Finset.range (ringWidth r)).filter fun p => streamBit .msbFirst cb p = true

theorem mem_ringOnes {r : Fin 9} {cb : CodeBuffer} {p : Nat} :
    p ∈ ringOnes r cb ↔ p < ringWidth r ∧ streamBit .msbFirst cb p = true := by
  rw [ringOnes, Finset.mem_filter, Finset.mem_range]

/-- Counting the ones byte by byte and bit by bit, or position by position, gives the same number (R34). -/
theorem card_ones_eq_card_ringOnes (r : Fin 9) (cb : CodeBuffer) :
    (Finset.univ.filter fun p : Fin 9 × Fin 8 => p.1 ≤ r ∧ cb[p.1].getLsbD p.2.val = true).card =
      (ringOnes r cb).card := by
  have bit (i : Fin 9) (b : Fin 8) : streamBit .msbFirst cb (8 * i.val + (7 - b.val)) = cb[i].getLsbD b.val :=
    streamBit_msbFirst_eq cb i.isLt b.isLt (Nat.mod_eq_of_lt (by omega))
  apply Finset.card_bij fun (p : Fin 9 × Fin 8) _ => 8 * p.1.val + (7 - p.2.val)
  case hi =>
    rintro ⟨i, b⟩ hmem
    obtain ⟨hi, hone⟩ := (Finset.mem_filter.mp hmem).2
    exact mem_ringOnes.mpr ⟨(lt_ringWidth_iff (by omega)).mpr hi, (bit i b).trans hone⟩
  case i_inj =>
    rintro ⟨i, b⟩ - ⟨i', b'⟩ - (hpos : 8 * i.val + (7 - b.val) = 8 * i'.val + (7 - b'.val))
    have hi : i = i' := by omega
    have hb : b = b' := by omega
    rw [hi, hb]
  case i_surj =>
    intro p hp
    obtain ⟨hring, hone⟩ := mem_ringOnes.mp hp
    have hp72 : p < 72 := hring.trans_le (ringWidth_le r)
    obtain ⟨i, hi⟩ : ∃ i : Fin 9, i.val = p / 8 := ⟨⟨p / 8, by omega⟩, rfl⟩
    obtain ⟨b, hb⟩ : ∃ b : Fin 8, b.val = 7 - p % 8 := ⟨⟨7 - p % 8, by omega⟩, rfl⟩
    obtain rfl : p = 8 * i.val + (7 - b.val) := by omega
    refine ⟨(i, b), Finset.mem_filter.mpr ⟨Finset.mem_univ _, ?_, (bit i b).symm.trans hone⟩, rfl⟩
    exact (lt_ringWidth_iff (by omega)).mp hring

/-- A rotated ring has as many ones: moving on by `n` positions takes the ones of the old ring onto those of the new
(R79). -/
theorem RingRotated.card_ringOnes {r : Fin 9} {n : Nat} {cb cb' : CodeBuffer} (h : RingRotated r n cb cb') :
    (ringOnes r cb').card = (ringOnes r cb).card := by
  symm
  apply Finset.card_bij fun p _ => (p + n) % ringWidth r
  case hi =>
    intro p hp
    obtain ⟨hring, hone⟩ := mem_ringOnes.mp hp
    exact mem_ringOnes.mpr ⟨Nat.mod_lt _ (ringWidth_pos r), (h.moved p hring).trans hone⟩
  case i_inj =>
    intro p hp q hq hpq
    exact (Nat.ModEq.add_right_cancel' n hpq).eq_of_lt_of_lt (mem_ringOnes.mp hp).1 (mem_ringOnes.mp hq).1
  case i_surj =>
    intro q hq
    obtain ⟨hring, hone⟩ := mem_ringOnes.mp hq
    obtain ⟨p, hp, rfl⟩ := exists_ring_source r n hring
    exact ⟨p, mem_ringOnes.mpr ⟨hp, (h.moved p hp).symm.trans hone⟩, rfl⟩

/-- Settles O35: an ignored ROTR changes nothing, and a performed one rotates the ring (R79). -/
theorem rotrKeepsTheNumberOfOnes : Obligations.RotrKeepsTheNumberOfOnes := by
  intro s r n
  cases hfault : s.fault.valid with
  | true => exact ⟨s, exec_faulted _ s hfault, rfl⟩
  | false =>
    refine ⟨s.setCode (rotateBuffer r n s.cb), rotrDoesTheTwoPhases s r n hfault, ?_⟩
    rw [card_ones_eq_card_ringOnes, card_ones_eq_card_ringOnes]
    exact (ringRotated_rotateBuffer r n s.cb).card_ringOnes

/-! ### MASK and ROTR -/

/-- MASK on the ring positions: it flips, in bytes 0 to 7, the positions of the key's high nibble, with period 4
(R86, R87). -/
theorem streamBit_maskBuffer (k : Byte) (cb : CodeBuffer) {p : Nat} (hp : p < 72) :
    streamBit .msbFirst (maskBuffer k cb) p =
      if p < 64 then (streamBit .msbFirst cb p ^^ k.getLsbD (7 - p % 4)) else streamBit .msbFirst cb p := by
  have hi : p / 8 < 9 := by omega
  have hb : 7 - p % 8 < 8 := by omega
  have hpos : p % 72 = 8 * (p / 8) + (7 - (7 - p % 8)) := by omega
  rw [streamBit_msbFirst_eq _ hi hb hpos, streamBit_msbFirst_eq _ hi hb hpos, maskBuffer_getElem]
  by_cases hp64 : p < 64
  · rw [if_pos (by omega), if_pos hp64, BitVec.getLsbD_xor, maskByte_getLsbD k hb,
      show 4 + (7 - p % 8) % 4 = 7 - p % 4 by omega]
  · rw [if_neg (by omega), if_neg hp64]

/-- A masked rotation of bytes 0 to 7 by whole nibbles is a rotation of the masked buffer: the mask has period 4
(R88). -/
theorem RingRotated.maskBuffer {m : Nat} {cb cb' : CodeBuffer} (h : RingRotated 7 (4 * m) cb cb') (k : Byte) :
    RingRotated 7 (4 * m) (maskBuffer k cb) (maskBuffer k cb') where
  moved p hp := by
    have hp64 : p < 64 := hp
    have hq64 : (p + 4 * m) % ringWidth 7 < 64 := Nat.mod_lt _ (ringWidth_pos 7)
    have period : (p + 4 * m) % ringWidth 7 % 4 = p % 4 := by
      rw [Nat.mod_mod_of_dvd _ (by decide : 4 ∣ ringWidth 7), Nat.add_mul_mod_self_left]
    rw [streamBit_maskBuffer k cb' (by omega), streamBit_maskBuffer k cb (by omega), if_pos hq64, if_pos hp64,
      period, h.moved p hp]
  outside p hout hp := by
    have hp64 : ¬ p < 64 := Nat.not_lt.mpr hout
    rw [streamBit_maskBuffer k cb' hp, streamBit_maskBuffer k cb hp, if_neg hp64, if_neg hp64, h.outside p hout hp]

/-- Settles O27: both orders map the buffer, and the two mappings agree because the mask has period 4 (R88). -/
theorem maskCommutesWithNibbleRotation : Obligations.MaskCommutesWithNibbleRotation := by
  intro s k m
  have commute : rotateBuffer 7 (4 * m) ∘ maskBuffer k = maskBuffer k ∘ rotateBuffer 7 (4 * m) := by
    funext cb
    exact ((ringRotated_rotateBuffer 7 (4 * m) cb).maskBuffer k).eq_rotateBuffer
  refine ⟨s.mapCode (maskBuffer k), _, s.mapCode (rotateBuffer 7 (4 * m)), exec_mask_eq_mapCode k s,
    exec_rotr_eq_mapCode 7 (4 * m) _, exec_rotr_eq_mapCode 7 (4 * m) s, ?_⟩
  rw [exec_mask_eq_mapCode, State.mapCode_mapCode, State.mapCode_mapCode, commute]

end Sys2Proof.Machine
end


section
/-! PROOFS. The Symbol Packer (`43_symbol_packer.md`): the symbols as sums of stream bits (R92) and by their bytes
(R93), the reused bits (R94), the running-index form (R95), and that the symbols determine the buffer (R97). -/

namespace Sys2Proof.Machine

/-! ### The bits of a symbol -/

/-- In the normative order, bit `t` of symbol `i` is stream bit `5 i + t` (R92). -/
theorem symbolAt_lsbFirst_getLsbD (cb : CodeBuffer) (i : Nat) {t : Nat} (ht : t < 5) :
    (symbolAt .lsbFirst cb i).getLsbD t = streamBit .lsbFirst cb (5 * i + t) :=
  symbolOfBits_getLsbD _ t ht

/-- In the alternative order, bit `t` of symbol `i` is stream bit `5 i + (4 - t)` (R98). -/
theorem symbolAt_msbFirst_getLsbD (cb : CodeBuffer) (i : Nat) {t : Nat} (ht : t < 5) :
    (symbolAt .msbFirst cb i).getLsbD t = streamBit .msbFirst cb (5 * i + (4 - t)) :=
  symbolOfBits_getLsbD _ t ht

/-- Every stream bit stands in a symbol, position `p` in symbol `p / 5`; so that symbol determines it, in either
order (R97). -/
theorem streamBit_eq_of_symbolAt_eq {order : SymBitOrder} {cb cb' : CodeBuffer} {p : Nat}
    (h : symbolAt order cb (p / 5) = symbolAt order cb' (p / 5)) : streamBit order cb p = streamBit order cb' p := by
  cases order with
  | lsbFirst =>
    have here (cb : CodeBuffer) := symbolAt_lsbFirst_getLsbD cb (p / 5) (t := p % 5) (by omega)
    rw [← Nat.div_add_mod p 5, ← here cb, ← here cb', h]
  | msbFirst =>
    have here (cb : CodeBuffer) := symbolAt_msbFirst_getLsbD cb (p / 5) (t := 4 - p % 5) (by omega)
    have hp : p = 5 * (p / 5) + (4 - (4 - p % 5)) := by omega
    rw [hp, ← here cb, ← here cb', h]

/-- Buffers with the same symbols are equal, in either order (R97): the fifteen symbols hold all 72 stream bits. -/
theorem packSymbols_injective (order : SymBitOrder) : Function.Injective (packSymbols order) := by
  intro cb cb' h
  apply codeBuffer_ext_streamBit order
  intro p hp
  have cell : p / 5 < 15 := by omega
  apply streamBit_eq_of_symbolAt_eq
  rw [← packSymbols_getElem order cb _ cell, ← packSymbols_getElem order cb' _ cell, h]

/-- Settles O41: `packSymbols` is injective in either order, and SYMPK writes it to `SYM` (R97). -/
theorem symbolsDetermineTheBuffer : Obligations.SymbolsDetermineTheBuffer := by
  refine ⟨fun order _ _ h => packSymbols_injective order h, fun s s' hs hs' => ?_⟩
  exact ⟨sympkStage s, sympkStage s', exec_sympk_unfaulted s hs, exec_sympk_unfaulted s' hs',
    fun h => packSymbols_injective _ h⟩

/-- A symbol as a number: the weighted sum of its bits (R92). -/
theorem toNat_symbolOfBits (bit : Nat → Bool) :
    (symbolOfBits bit).toNat = ∑ x : Fin 5, (bit x.val).toNat * 2 ^ x.val := by
  have fits (n : Nat) : (bit n).toNat ≤ 1 := Bool.toNat_le _
  have h0 := fits 0
  have h1 := fits 1
  have h2 := fits 2
  have h3 := fits 3
  have h4 := fits 4
  rw [symbolOfBits, BitVec.toNat_ofNat, Nat.mod_eq_of_lt (by omega), Fin.sum_univ_five]
  simp

/-- Settles O37: SYMPK writes the packed symbols to `SYM` alone, and each is the sum of its stream bits (R91, R92). -/
theorem sympkCutsTheStreamIntoSymbols : Obligations.SympkCutsTheStreamIntoSymbols := by
  intro s hfault
  refine ⟨sympkStage s, exec_sympk_unfaulted s hfault, rfl, fun i => ?_⟩
  rw [sympkStage_eq, State.setSymbols_sym, Fin.getElem_fin, packSymbols_getElem]
  exact toNat_symbolOfBits _

/-- A run of a symbol's bits whose stream positions lie in one byte is a run of that byte's bits (R92). -/
theorem extract_symbolAt_lsbFirst (cb : CodeBuffer) {n i t b len : Nat} (hi : i < 9) (ht : t + len ≤ 5)
    (hb : b + len ≤ 8) (h : (5 * n + t) % 72 = 8 * i + b) :
    (symbolAt .lsbFirst cb n).extractLsb' t len = cb[i].extractLsb' b len := by
  apply BitVec.eq_of_getLsbD_eq
  intro x hx
  have hpos : (5 * n + (t + x)) % 72 = 8 * i + (b + x) := by omega
  rw [BitVec.getLsbD_extractLsb', BitVec.getLsbD_extractLsb', symbolAt_lsbFirst_getLsbD cb n (by omega),
    streamBit_lsbFirst_eq cb hi (by omega) hpos]

/-- Settles O39: stream positions 72 to 74, the last symbol's top bits, wrap to positions 0 to 2, the first symbol's
bottom bits (R94). -/
theorem lastSymbolReusesThreeBits : Obligations.LastSymbolReusesThreeBits := by
  intro s hfault
  refine ⟨sympkStage s, exec_sympk_unfaulted s hfault, ?_⟩
  rw [sympkStage_eq, State.setSymbols_sym, packSymbols_getElem, packSymbols_getElem]
  exact ⟨extract_symbolAt_lsbFirst s.cb (n := 14) (by decide) (by decide) (by decide) rfl,
    extract_symbolAt_lsbFirst s.cb (n := 0) (by decide) (by decide) (by decide) rfl⟩

/-! ### The symbols by their bytes -/

/-- A symbol that begins in byte `i` at offset `o` is cut from that byte and the next one (R93). -/
theorem toNat_symbolAt_lsbFirst (cb : CodeBuffer) {n o : Nat} {i : Fin 9} (ho : o < 8) (h : 5 * n = 8 * i.val + o) :
    (symbolAt .lsbFirst cb n).toNat = (cb[i].toNat >>> o ||| cb[i + 1].toNat <<< (8 - o)) &&& 0x1F := by
  apply Nat.eq_of_testBit_eq
  intro t
  have mask : Nat.testBit 0x1F t = decide (t < 5) := Nat.testBit_two_pow_sub_one 5 t
  rw [Nat.testBit_and, mask, Nat.testBit_or, Nat.testBit_shiftRight, Nat.testBit_shiftLeft, BitVec.testBit_toNat,
    BitVec.testBit_toNat, BitVec.testBit_toNat]
  by_cases ht : t < 5
  · rw [symbolAt_lsbFirst_getLsbD cb n ht, decide_eq_true ht, Bool.and_true]
    by_cases hin : o + t < 8
    · rw [streamBit_lsbFirst_eq cb i.isLt hin (by omega), decide_eq_false (by omega)]
      simp
    · have hnext : (5 * n + t) % 72 = 8 * (i + 1).val + (t - (8 - o)) := by
        rw [Fin.val_add]
        omega
      rw [streamBit_lsbFirst_eq cb (i + 1).isLt (by omega) hnext, BitVec.getLsbD_of_ge cb[i] _ (by omega),
        decide_eq_true (by omega)]
      simp
  · rw [BitVec.getLsbD_of_ge _ _ (by omega), decide_eq_false ht, Bool.and_false]

/-- A symbol that ends in the byte it begins in is cut from that byte alone (R93). -/
theorem toNat_symbolAt_lsbFirst_within (cb : CodeBuffer) {n o : Nat} {i : Fin 9} (ho : o ≤ 3)
    (h : 5 * n = 8 * i.val + o) : (symbolAt .lsbFirst cb n).toNat = (cb[i].toNat >>> o) &&& 0x1F := by
  have above (x : Nat) : x <<< (8 - o) &&& 0x1F = 0 := by
    have whole : 2 ^ (8 - o) = 2 ^ 5 * 2 ^ (3 - o) := by rw [← pow_add]; congr 1; omega
    rw [show (0x1F : Nat) = 2 ^ 5 - 1 from rfl, Nat.and_two_pow_sub_one_eq_mod, Nat.shiftLeft_eq, whole,
      ← mul_assoc, mul_right_comm, Nat.mul_mod_left]
  rw [toNat_symbolAt_lsbFirst cb (by omega) h, Nat.and_or_distrib_right, above, Nat.or_zero]

/-- The packed symbols as a list, index 0 first (R90). -/
theorem toList_packSymbols (order : SymBitOrder) (cb : CodeBuffer) :
    (packSymbols order cb).toList = (List.range 15).map (symbolAt order cb) := by
  apply List.ext_getElem
  · simp
  · intro i hi _
    have hi15 : i < 15 := by simpa using hi
    rw [Vector.getElem_toList, packSymbols_getElem order cb i hi15, List.getElem_map, List.getElem_range]

/-- Settles O38: the fifteen symbols begin at multiples of 5 of the stream; each is cut from one byte or from two
(R93). -/
theorem symbolsByTheirBytes : Obligations.SymbolsByTheirBytes := by
  intro s hfault
  refine ⟨sympkStage s, exec_sympk_unfaulted s hfault, ?_⟩
  have cut {n : Nat} (i : Fin 9) (o : Nat) := @toNat_symbolAt_lsbFirst s.cb n o i
  have cutWithin {n : Nat} (i : Fin 9) (o : Nat) := @toNat_symbolAt_lsbFirst_within s.cb n o i
  have cells : (sympkStage s).sym.toList =
      [0, 1, 2, 3, 4, 5, 6, 7, 8, 9, 10, 11, 12, 13, 14].map (symbolAt .lsbFirst s.cb) :=
    toList_packSymbols .lsbFirst s.cb
  simp only [cells, List.map_cons, List.map_nil, List.cons.injEq, and_true]
  exact ⟨cutWithin 0 0 (by decide) rfl, cut 0 5 (by decide) rfl, cutWithin 1 2 (by decide) rfl,
    cut 1 7 (by decide) rfl, cut 2 4 (by decide) rfl, cutWithin 3 1 (by decide) rfl, cut 3 6 (by decide) rfl,
    cutWithin 4 3 (by decide) rfl, cutWithin 5 0 (by decide) rfl, cut 5 5 (by decide) rfl,
    cutWithin 6 2 (by decide) rfl, cut 6 7 (by decide) rfl, cut 7 4 (by decide) rfl,
    cutWithin 8 1 (by decide) rfl, cut 8 6 (by decide) rfl⟩

/-! ### The running-index form -/

/-- The variables of R95's loop between two iterations, at stream position `p`: the leftover bits stand in `carry`, the
next unread bit at `idx` and `used`, and the next symbol ends in that byte. -/
structure RunningIndex.At (v : RunningIndex) (cb : CodeBuffer) (p : Nat) : Prop where
  /-- The leftover bits do not fill a symbol. -/
  leftover_lt : v.leftover < 5
  /-- The bits the next symbol still needs are in the current byte. -/
  used_le : v.used + (5 - v.leftover) ≤ 8
  /-- The next unread bit comes after the leftover ones in the stream. -/
  place : (p + v.leftover) % 72 = 8 * v.idx.val + v.used
  /-- `carry` holds the leftover bits only. -/
  carry_lt : v.carry < 2 ^ v.leftover
  /-- The leftover bits are the next of the stream. -/
  carry_bit : ∀ t < v.leftover, v.carry.testBit t = streamBit .lsbFirst cb (p + t)

/-- The next bits of the current byte are the stream bits after the leftover ones. -/
theorem RunningIndex.At.byte_bit {v : RunningIndex} {cb : CodeBuffer} {p : Nat} (h : v.At cb p) {t : Nat}
    (ht : v.leftover ≤ t) (hbyte : v.used + (t - v.leftover) < 8) :
    cb[v.idx].toNat.testBit (v.used + (t - v.leftover)) = streamBit .lsbFirst cb (p + t) := by
  have hplace := h.place
  rw [streamBit_lsbFirst_eq cb v.idx.isLt hbyte (by omega)]
  rfl

/-- The symbol an iteration emits is the one whose bits are the next five of the stream (R95). -/
theorem RunningIndex.At.symbol_eq {v : RunningIndex} {cb : CodeBuffer} {n : Nat} (h : v.At cb (5 * n)) :
    (runningIndexStep cb v).1 = symbolAt .lsbFirst cb n := by
  have emitted : (runningIndexStep cb v).1 = BitVec.ofNat 5
      ((v.carry ||| ((cb[v.idx].toNat >>> v.used) % 2 ^ (5 - v.leftover)) <<< v.leftover) &&& 0x1F) := by
    simp only [runningIndexStep]
    split_ifs <;> rfl
  have hused := h.used_le
  apply BitVec.eq_of_getLsbD_eq
  intro t ht
  have mask : Nat.testBit 0x1F t = decide (t < 5) := Nat.testBit_two_pow_sub_one 5 t
  rw [emitted, BitVec.getLsbD_ofNat, symbolAt_lsbFirst_getLsbD cb n ht, Nat.testBit_and, mask, decide_eq_true ht,
    Nat.testBit_or, Nat.testBit_shiftLeft, Nat.testBit_mod_two_pow, Nat.testBit_shiftRight]
  by_cases hleft : t < v.leftover
  · rw [h.carry_bit t hleft, decide_eq_false (Nat.not_le.mpr hleft)]
    simp
  · have hle : v.leftover ≤ t := Nat.le_of_not_lt hleft
    have carry_clear : v.carry.testBit t = false :=
      Nat.testBit_lt_two_pow (h.carry_lt.trans_le (Nat.pow_le_pow_right (by decide) hle))
    rw [carry_clear, h.byte_bit hle (by omega), decide_eq_true hle, decide_eq_true (by omega)]
    simp

/-- An iteration takes the variables five stream bits further (R95). -/
theorem RunningIndex.At.step {v : RunningIndex} {cb : CodeBuffer} {p : Nat} (h : v.At cb p) :
    (runningIndexStep cb v).2.At cb (p + 5) := by
  have hleft := h.leftover_lt
  have hused := h.used_le
  have hplace := h.place
  have hidx := v.idx.isLt
  by_cases hnext : 8 - (v.used + (5 - v.leftover)) < 5
  · have after : (runningIndexStep cb v).2 =
        { idx := v.idx + 1
          used := 0
          carry := cb[v.idx].toNat >>> (v.used + (5 - v.leftover))
          leftover := 8 - (v.used + (5 - v.leftover)) } := by
      simp only [runningIndexStep]
      rw [if_pos hnext]
    rw [after]
    constructor
    case leftover_lt => exact hnext
    case used_le =>
      dsimp only
      omega
    case place =>
      dsimp only
      rw [Fin.val_add]
      omega
    case carry_lt =>
      rw [Nat.shiftRight_eq_div_pow, Nat.div_lt_iff_lt_mul (Nat.two_pow_pos _), ← pow_add, Nat.sub_add_cancel hused]
      exact cb[v.idx].isLt
    case carry_bit =>
      intro t (ht : t < 8 - (v.used + (5 - v.leftover)))
      have bit := h.byte_bit (t := 5 + t) (by omega) (by omega)
      rw [Nat.testBit_shiftRight, Nat.add_assoc p 5 t, ← bit]
      congr 1
      omega
  · have after : (runningIndexStep cb v).2 =
        { idx := v.idx, used := v.used + (5 - v.leftover), carry := 0, leftover := 0 } := by
      simp only [runningIndexStep]
      rw [if_neg hnext]
    rw [after]
    constructor
    case leftover_lt => exact Nat.succ_pos 4
    case used_le =>
      dsimp only
      omega
    case place =>
      dsimp only
      omega
    case carry_lt => exact Nat.one_pos
    case carry_bit => exact fun t ht => absurd ht (Nat.not_lt_zero t)

/-- The iterations from position `5 n` on emit the symbols from `n` on. -/
theorem RunningIndex.At.symbols_eq {v : RunningIndex} {cb : CodeBuffer} {n : Nat} (h : v.At cb (5 * n)) (count : Nat) :
    runningIndexSymbols cb count v = (List.range' n count).map (symbolAt .lsbFirst cb) := by
  induction count generalizing v n with
  | zero => rfl
  | succ count ih =>
    have further : (runningIndexStep cb v).2.At cb (5 * (n + 1)) := h.step
    calc runningIndexSymbols cb (count + 1) v
        = (runningIndexStep cb v).1 :: runningIndexSymbols cb count (runningIndexStep cb v).2 := rfl
      _ = _ := by rw [h.symbol_eq, ih further, List.range'_succ, List.map_cons]

/-- Settles O40: the loop's initial variables stand at position 0 (R95). -/
theorem runningIndexLoopEmitsTheSymbols : Obligations.RunningIndexLoopEmitsTheSymbols := by
  intro cb
  have start : RunningIndex.At { idx := 0, used := 0, carry := 0, leftover := 0 } cb (5 * 0) :=
    ⟨by decide, by decide, rfl, by decide, fun t ht => absurd ht (Nat.not_lt_zero t)⟩
  rw [toList_packSymbols, List.range_eq_range']
  exact start.symbols_eq 15

end Sys2Proof.Machine
end


section
/-! PROOFS. The Renderer (`44_renderer.md`): the alphabet (R18) and that REND is one to one (R108). -/

namespace Sys2Proof.Machine

/-- Different symbols have different character codes (R108, log entry 7). -/
theorem charCode_letter_injective : Function.Injective fun v : Symbol => config.charCode (letter v) := by
  have distinct : ∀ u v : Symbol, config.charCode (letter u) = config.charCode (letter v) → u = v := by decide
  exact fun u v => distinct u v

/-- Different symbol files render to different strings (R108): cell by cell. -/
theorem renderSymbols_injective : Function.Injective (renderSymbols config.charCode) := by
  intro sym sym' h
  apply Vector.ext
  intro i hi
  apply charCode_letter_injective
  change config.charCode (letter sym[i]) = config.charCode (letter sym'[i])
  rw [← renderSymbols_getElem config.charCode sym i hi, ← renderSymbols_getElem config.charCode sym' i hi, h]

/-- Settles O43: the list by definition; two symbols of one letter have one character code (R18). -/
theorem alphabetIsTheListOfTheSpec : Obligations.AlphabetIsTheListOfTheSpec :=
  ⟨rfl, fun _ _ h => charCode_letter_injective (congrArg config.charCode h)⟩

/-- Settles O44: REND writes the rendered symbols to `OUT`, and rendering is injective (R108). -/
theorem rendIsOneToOne : Obligations.RendIsOneToOne := by
  intro s s' hs hs'
  exact ⟨rendStage s, rendStage s', exec_rend_unfaulted s hs, exec_rend_unfaulted s' hs',
    fun h => renderSymbols_injective h⟩

end Sys2Proof.Machine
end

section
/-! PROOFS. The encode pipeline (`45_encode_pipeline.md`): the sub-operation that `SEQ` names (R116), the buffer of an
ENCODE as a function of `P` (R141), the place of the key's bits in it (R115), the distinctness of the codes (R118), and
the known vector V1. -/

namespace Sys2Proof.Machine

/-! ### Sub-operations under `SEQ` -/

/-- No sub-operation of ENCODE writes a field other than `CB`, `SYM` and `OUT` (R113): its two ranges are legal, so it
raises no fault. -/
theorem encodeSubOperation_frame (k : Fin 6) (s : State) :
    encodeSubOperation k s =
      { s with
        cb := (encodeSubOperation k s).cb
        sym := (encodeSubOperation k s).sym
        out := (encodeSubOperation k s).out } := by
  match k with
  | 0 | 1 | 4 | 5 => rfl
  | 2 => rw [encodeSubOperation, rotrStage_legal (h := by decide)]; rfl
  | 3 => rw [encodeSubOperation, rotrStage_legal (h := by decide)]; rfl

/-- Without a fault, one sub-operation is done and `SEQ` counts up, wrapping after step 5 (R116). -/
theorem encodeStep_unfaulted (s : State) (hfault : s.fault.valid = false) :
    encodeStep s = (encodeSubOperation s.seq s).setSeq (s.seq + 1) := by
  have kept : (encodeSubOperation s.seq s).faulted = false ∧ (encodeSubOperation s.seq s).seq = s.seq := by
    rw [encodeSubOperation_frame]
    exact ⟨hfault, rfl⟩
  obtain ⟨hunfaulted, hseq⟩ := kept
  simp only [encodeStep, State.faulted_eq s, hfault, hunfaulted, hseq]
  rfl

/-- Settles O46: the sub-operation of each step number is the stage of the operation named for it, an unfaulted
`encodeStep` does that stage and counts `SEQ` up, and ENCODE's stage is six of them (R113, R116). -/
theorem encodeStepsUnderSeq : Obligations.EncodeStepsUnderSeq := by
  refine ⟨fun s hfault => ⟨encodeSubOperation s.seq s, ?operation, ?seq, ?counted, ?same⟩,
    fun s hfault => exec_encode_unfaulted s hfault⟩
  case operation =>
    split <;> rename_i hseq <;> rw [hseq]
    · exact exec_pack_unfaulted s hfault
    · exact exec_mask_unfaulted _ s hfault
    · exact exec_rotr_unfaulted _ _ s hfault
    · exact exec_rotr_unfaulted _ _ s hfault
    · exact exec_sympk_unfaulted s hfault
    · exact exec_rend_unfaulted s hfault
  case seq => rw [encodeSubOperation_frame]
  case counted =>
    rw [encodeStep_unfaulted s hfault, State.setSeq_seq, Fin.val_add]
    rfl
  case same =>
    rw [encodeStep_unfaulted s hfault]
    rfl

/-! ### ENCODE as a function of the ports -/

/-- The Code Buffer at ENCODE's completion: packed, masked and rotated twice (R113). -/
def encodedBuffer (p : Params) : CodeBuffer :=
  rotateBuffer 8 rot2Shift (rotateBuffer 7 (config.shift1 p.key) (maskBuffer p.key (packBuffer config.rgbLayout p)))

/-- The symbols at ENCODE's completion. -/
def encodedSymbols (p : Params) : SymbolFile := packSymbols config.symBitOrder (encodedBuffer p)

/-- The string at ENCODE's completion. -/
def encodedOut (p : Params) : OutputFile := renderSymbols config.charCode (encodedSymbols p)

/-- What an unfaulted ENCODE answers: the three files as functions of `P`, and `SEQ` 0 (R113, R141). -/
theorem exec_encode_eq (s : State) (hfault : s.fault.valid = false) :
    exec .encode s = .next
      { s with
        cb := encodedBuffer s.params
        sym := encodedSymbols s.params
        out := encodedOut s.params
        seq := 0 } := by
  rw [exec_encode_unfaulted s hfault, encodeStage_unfaulted s hfault, rotrStage_legal (h := by decide),
    rotrStage_legal (h := by decide)]
  rfl

/-- Settles O47: the three files are functions of `P` (R141). -/
theorem encodeDependsOnTheParametersOnly : Obligations.EncodeDependsOnTheParametersOnly := by
  intro s s' hs hs' hparams
  refine ⟨_, _, exec_encode_eq s hs, exec_encode_eq s' hs', ?_⟩
  rw [hparams]
  exact ⟨rfl, rfl, rfl, rfl⟩

/-! ### The key's bits -/

/-- Byte 8 stays the key until the second rotation: the mask and the first ring end at byte 7 (R61, R87, R115). -/
theorem rotated_masked_packed_getElem_eight (p : Params) (n : Nat) :
    (rotateBuffer 7 n (maskBuffer p.key (packBuffer config.rgbLayout p)))[(8 : Fin 9)] = p.key := by
  rw [(ringRotated_rotateBuffer 7 n _).getElem_outside (by decide), Fin.getElem_fin, maskBuffer_getElem,
    if_neg (by decide)]
  rfl

/-- The second rotation takes bit `b` of byte 8 from ring position `71 - b` to position `20 - b` (R115). -/
theorem encodedBuffer_key_bit (p : Params) {i : Fin 9} {b b' : Nat} (hb : b < 8) (hb' : b' < 8)
    (hpos : 8 * i.val + (7 - b') = 20 - b) : (encodedBuffer p)[i].getLsbD b' = p.key.getLsbD b := by
  have rotated := ringRotated_rotateBuffer 8 rot2Shift
    (rotateBuffer 7 (config.shift1 p.key) (maskBuffer p.key (packBuffer config.rgbLayout p)))
  have place : 8 * i.val + (7 - b') = (8 * (8 : Fin 9).val + (7 - b) + rot2Shift) % ringWidth 8 := by
    change 8 * i.val + (7 - b') = (8 * 8 + (7 - b) + 21) % 72
    omega
  rw [encodedBuffer, rotated.getLsbD_eq hb hb' le_rfl place, rotated_masked_packed_getElem_eight]

/-- Settles O48: key bits 7 to 5 go to positions 13 to 15 and bits 4 to 0 to positions 16 to 20 (R115). -/
theorem encodePlacesTheKeyBits : Obligations.EncodePlacesTheKeyBits := by
  intro s hfault
  refine ⟨_, exec_encode_eq s hfault, ?high, ?low⟩
  case high =>
    apply BitVec.eq_of_getLsbD_eq
    intro j hj
    rw [BitVec.getLsbD_extractLsb', BitVec.getLsbD_extractLsb']
    exact congrArg _ (encodedBuffer_key_bit s.params (i := 1) (by omega) (by omega)
      (show 8 * 1 + (7 - (0 + j)) = 20 - (5 + j) by omega))
  case low =>
    apply BitVec.eq_of_getLsbD_eq
    intro j hj
    rw [BitVec.getLsbD_extractLsb', BitVec.getLsbD_extractLsb']
    exact congrArg _ (encodedBuffer_key_bit s.params (i := 2) (by omega) (by omega)
      (show 8 * 2 + (7 - (3 + j)) = 20 - (0 + j) by omega))

/-- The buffer at completion determines the key (R118): all eight key bits stand in it. -/
theorem key_eq_of_encodedBuffer_eq {p p' : Params} (h : encodedBuffer p = encodedBuffer p') : p.key = p'.key := by
  apply BitVec.eq_of_getLsbD_eq
  intro b hb
  obtain ⟨i, hi⟩ : ∃ i : Fin 9, i.val = (20 - b) / 8 := ⟨⟨(20 - b) / 8, by omega⟩, rfl⟩
  have bit (p : Params) : (encodedBuffer p)[i].getLsbD (7 - (20 - b) % 8) = p.key.getLsbD b :=
    encodedBuffer_key_bit p hb (by omega) (by omega)
  rw [← bit p, ← bit p', h]

/-- The string at completion determines the key (R118): rendering and symbol packing lose nothing. -/
theorem key_eq_of_encodedOut_eq {p p' : Params} (h : encodedOut p = encodedOut p') : p.key = p'.key :=
  key_eq_of_encodedBuffer_eq (packSymbols_injective _ (renderSymbols_injective h))

/-- Settles O49: equal strings have equal keys, whatever the other parameters (R118). -/
theorem differentKeysGiveDifferentCodes : Obligations.DifferentKeysGiveDifferentCodes := by
  intro s k k' hfault hne
  refine ⟨_, _, exec_encode_eq (s.setParams { s.params with key := k }) hfault,
    exec_encode_eq (s.setParams { s.params with key := k' }) hfault, fun hout => hne ?_⟩
  exact key_eq_of_encodedOut_eq hout

/-! ### The known vector -/

/-- Settles O50: the buffer and the string are functions of the ports, evaluated at V1's (`95_test_vectors.md`). -/
theorem knownVectorEncodes : Obligations.KnownVectorEncodes := by
  intro s hfault hparams
  refine ⟨_, exec_encode_eq s hfault, ?_⟩
  dsimp only
  rw [hparams]
  decide

end Sys2Proof.Machine
end
